-- ==== Sys2Proof/Word.lean ====
section
/-! DEFINITION. The widths the manual counts in: a byte of a frame, a 16-bit counter or round stamp, a 32-bit window word. -/

namespace Sys2Proof

/-- A byte of a frame or a character of a name. -/
abbrev Byte := BitVec 8

/-- A 16-bit counter, or the round counter and its stamps (R13, R16). -/
abbrev Half := BitVec 16

/-- A 32-bit word of the host's window, or a point's value (R58, R164). -/
abbrev Word := BitVec 32

end Sys2Proof
end

