-- ==== Sys2Proof/Config.lean ====
section
/-! DEFINITION. What is fixed for the part (the bit-time limits and the sizes of its lists), and the free values: the orders the manual
leaves open inside one step. -/

namespace Sys2Proof

namespace Config

/-- A slot is 1024 bit times long: the slot timer's last value (R16). -/
def lastBit : BitVec 10 := 1023

/-- The send point: the slot timer's value at which an assembled frame is begun (R4). -/
def sendPoint : BitVec 10 := 16

/-- Recessive bit times before a start bit is taken, and after a stop bit to end an arrival (R2). -/
def endOfFrameBits : Nat := 12

/-- A dominant run longer than this begins a medium hold (R14). -/
def holdRun : Nat := 20

/-- A recessive run of this length ends a medium hold (R15). -/
def releaseRun : Nat := 1024

/-- Bytes of an arrival the receiver keeps (R2). -/
def maxFrameBytes : Nat := 96

/-- Bytes of the shortest frame (R9). -/
def minFrameBytes : Nat := 10

/-- The most bytes a data section may have (R5). -/
def maxDataBytes : Nat := 48

/-- The most published bits of a catalogue (R59, R89). -/
def maxPublishedBits : Nat := 384

/-- Stations on a bus (R78). -/
def stations : Nat := 32

/-- Entries of the image table (R99). -/
def imageEntries : Nat := 128

/-- Points of a catalogue and places of a shape list (R59, R86). -/
def maxPoints : Nat := 32

/-- Records of the request list, and how many of them may be discovery records (R129). -/
def maxRequests : Nat := 8
def maxDiscovery : Nat := 4

/-- Answers of the answer queue (R74). -/
def maxAnswers : Nat := 4

/-- Records of the event queue (R168). -/
def maxEvents : Nat := 32

/-- Slot frames that may carry one request (R137). -/
def maxAttempts : Nat := 3

/-- Round boundaries a SENT record waits for its answer (R136). -/
def answerWait : Nat := 2

/-- Rounds of the listening phase and of the leaving sequence (R47, R51). -/
def listenRounds : Nat := 2
def leavingRounds : Nat := 2

/-- Silence at which a HEARD record is freed, and clean claims that make a record OWNED (R27, R30). -/
def silenceLimit : Nat := 3
def cleanClaims : Nat := 3

end Config

/-- The choices one step makes among orders that the manual leaves open (log 5, log 6).
Every field is a free value: no statement may rest on what it is. -/
structure Order where
  /-- At the end of one bit time, the line's event (the end of an arrival or of a hold) comes before the slot timer's (the
  send point or the end of the slot, log 9). -/
  lineFirst : Bool
  /-- R21: the request unit and the answer side take the report of a transmission's end after the slot unit. -/
  slotReportFirst : Bool
  /-- At the end of a GOOD arrival the slot map takes the frame before the image unit takes its values (R103). -/
  mapBeforeValues : Bool
  /-- At the end of a GOOD arrival the slot map takes the frame before the request unit matches its answer. -/
  mapBeforeAnswers : Bool
  /-- The LOST reports waiting for an arrival are given before the blocks take the rest of the arrival. -/
  reportsFirst : Bool
  /-- The adoption is made before the other blocks take the arrival (R108, R138, R156). -/
  adoptFirst : Bool
  /-- After such an adoption, these reactions to a forward wrap's boundary come before the arrival's reports. -/
  listenFirst : Bool
  leavingFirst : Bool
  hostFirst : Bool
  agesFirst : Bool
  waitsFirst : Bool
  periodsFirst : Bool
  deadlineFirst : Bool
  /-- At the start of a hold, the arrival it ends is taken before the CLAIMING records are freed (R14, R37). -/
  holdArrivalFirst : Bool
  /-- The entries whose report to the watch is taken before the report to the collector (R116). -/
  watchFirst : List Nat
  /-- On entering OFF the collector reacts after this many image entries have passed to RESOLVING (R162). -/
  offAfter : Nat
  /-- On entering OFF the request unit ends its records after the image unit has reacted. -/
  offImageFirst : Bool
  /-- Which of the events raised together by different blocks enters the queue next (R168). -/
  eventPicks : List Nat
deriving DecidableEq, Repr, Inhabited

/-- FREE VALUE (log 5): the orders taken in the n-th step that reads them. It has no body, so nothing can be proved of them. -/
opaque Config.order : Nat → Order

end Sys2Proof
end

