-- ==== Sys2Proof/Syntax.lean ====
section
/-! DEFINITION. The commands: one constructor for each row of spec/opcode_table.json, with what the sender gives it. -/

namespace Sys2Proof

/-- The two levels of the line: dominant is 0 and recessive is 1 (00, Terms). -/
inductive Level where
  | dominant
  | recessive
deriving DecidableEq, Repr, Inhabited

/-- The commands. A host command carries bits 30..24 (`top`, not taken, R164) and the operand (bits 15..0) of the
word written to COMMAND; its arguments are the ARG words of the window as they stand (R165). An event of bus time (R2, R3, R4,
R14, R15, R16, R21) carries the levels RXD showed, one for each bit time since the last such event: those before, and the last, in or at
the end of which the event named comes (log 8). Left out, they are an idle line and the event's own level. -/
inductive Instr where
  /-- RESET: a write to COMMAND with code 01h (section 10.4). -/
  | reset (top : BitVec 7) (operand : Half)
  /-- CONFIGURE: a write to COMMAND with code 02h (section 10.4). -/
  | configure (top : BitVec 7) (operand : Half)
  /-- DEFINE_POINT: a write to COMMAND with code 03h (section 10.4). -/
  | definePoint (top : BitVec 7) (operand : Half)
  /-- CLEAR_CATALOGUE: a write to COMMAND with code 04h (section 10.4). -/
  | clearCatalogue (top : BitVec 7) (operand : Half)
  /-- JOIN: a write to COMMAND with code 05h (section 10.4). -/
  | join (top : BitVec 7) (operand : Half)
  /-- LEAVE: a write to COMMAND with code 06h (section 10.4). -/
  | leave (top : BitVec 7) (operand : Half)
  /-- SET_CONDITION: a write to COMMAND with code 07h (section 10.4). -/
  | setCondition (top : BitVec 7) (operand : Half)
  /-- FEED: a write to COMMAND with code 08h (section 10.4). -/
  | feed (top : BitVec 7) (operand : Half)
  /-- SET_POINT: a write to COMMAND with code 09h (section 10.4). -/
  | setPoint (top : BitVec 7) (operand : Half)
  /-- GET_POINT: a write to COMMAND with code 0Ah (section 10.4). -/
  | getPoint (top : BitVec 7) (operand : Half)
  /-- SUBSCRIBE: a write to COMMAND with code 0Bh (section 10.4). -/
  | subscribe (top : BitVec 7) (operand : Half)
  /-- UNSUBSCRIBE: a write to COMMAND with code 0Ch (section 10.4). -/
  | unsubscribe (top : BitVec 7) (operand : Half)
  /-- READ_IMAGE: a write to COMMAND with code 0Dh (section 10.4). -/
  | readImage (top : BitVec 7) (operand : Half)
  /-- SET_WATCH: a write to COMMAND with code 0Eh (section 10.4). -/
  | setWatch (top : BitVec 7) (operand : Half)
  /-- CLEAR_WATCH: a write to COMMAND with code 0Fh (section 10.4). -/
  | clearWatch (top : BitVec 7) (operand : Half)
  /-- READ_PEER: a write to COMMAND with code 10h (section 10.4). -/
  | readPeer (top : BitVec 7) (operand : Half)
  /-- READ_SHAPE: a write to COMMAND with code 11h (section 10.4). -/
  | readShape (top : BitVec 7) (operand : Half)
  /-- REFRESH_PEER: a write to COMMAND with code 12h (section 10.4). -/
  | refreshPeer (top : BitVec 7) (operand : Half)
  /-- READ_SLOT: a write to COMMAND with code 13h (section 10.4). -/
  | readSlot (top : BitVec 7) (operand : Half)
  /-- SEND_REQUEST: a write to COMMAND with code 14h (section 10.4). -/
  | sendRequest (top : BitVec 7) (operand : Half)
  /-- TAKE_RESULT: a write to COMMAND with code 15h (section 10.4). -/
  | takeResult (top : BitVec 7) (operand : Half)
  /-- CANCEL_REQUEST: a write to COMMAND with code 16h (section 10.4). -/
  | cancelRequest (top : BitVec 7) (operand : Half)
  /-- SET_SNAPSHOT: a write to COMMAND with code 17h (section 10.4). -/
  | setSnapshot (top : BitVec 7) (operand : Half)
  /-- FIRE_SNAPSHOT: a write to COMMAND with code 18h (section 10.4). -/
  | fireSnapshot (top : BitVec 7) (operand : Half)
  /-- REARM_SNAPSHOT: a write to COMMAND with code 19h (section 10.4). -/
  | rearmSnapshot (top : BitVec 7) (operand : Half)
  /-- READ_SNAPSHOT: a write to COMMAND with code 1Ah (section 10.4). -/
  | readSnapshot (top : BitVec 7) (operand : Half)
  /-- TAKE_EVENT: a write to COMMAND with code 1Bh (section 10.4). -/
  | takeEvent (top : BitVec 7) (operand : Half)
  /-- READ_COUNTERS: a write to COMMAND with code 1Ch (section 10.4). -/
  | readCounters (top : BitVec 7) (operand : Half)
  /-- UNKNOWN_COMMAND_CODE: a write to COMMAND whose code names no command (R165). -/
  | unknownCommandCode (top : BitVec 7) (code : Byte) (operand : Half)
  /-- COMMAND_WRITE_REFUSED: a write to COMMAND, bit 31 clear, code not RESET, while a command or a reset runs (R166). -/
  | commandWriteRefused (word : Word)
  /-- COMMAND_COMPLETION: the running command comes to its end (R165). -/
  | commandCompletion
  /-- RESET_COMPLETE: a running reset comes to its end (R172, R173). -/
  | resetComplete
  /-- STATUS_READ: STATUS, at address 02h, is sampled for a read (R166). A word at another address is sampled the same way,
  without STATUS's effect (R163, log 23). -/
  | statusRead (address : BitVec 7 := 2)
  /-- WINDOW_WRITE: a word written to a window address by an SPI write (R163, R164). -/
  | windowWrite (address : BitVec 7) (word : Word)
  /-- RESETN_ASSERT and RESETN_RELEASE: the levels of the RESETN pin (R173). -/
  | resetnAssert
  | resetnRelease
  /-- TRIG_EDGE: the TRIG pin takes a level, high when `level` is true (R149). -/
  | trigEdge (level : Bool)
  /-- START_BIT_TAKEN: a dominant edge on RXD after 12 recessive bit times (R2). -/
  | startBitTaken (before : List Level) (last : Level := .dominant)
  /-- ARRIVAL_END: 12 recessive bit times after a stop bit end the arrival in progress (R2, R9). -/
  | arrivalEnd (before : List Level) (last : Level)
  /-- ARBITRATION_LOSS: during a transmission the bit read back differs from the bit sent (R3). -/
  | arbitrationLoss (before : List Level) (last : Level)
  /-- SEND_POINT: the slot timer reaches 16 (R4). -/
  | sendPoint (before : List Level := []) (last : Level := .recessive)
  /-- TRANSMISSION_SENT: the last stop bit has gone out without loss (R21). -/
  | transmissionSent (before : List Level := []) (last : Level := .recessive)
  /-- HOLD_BEGIN: an unbroken dominant run on RXD passes 20 bit times (R14). -/
  | holdBegin (before : List Level) (last : Level := .dominant)
  /-- HOLD_END: an unbroken recessive run on RXD reaches 1024 bit times (R15). -/
  | holdEnd (before : List Level) (last : Level := .recessive)
  /-- END_OF_SLOT: the slot timer passes 1023 (R16). -/
  | endOfSlot (before : List Level := []) (last : Level := .recessive)
  /-- SILENCE_LIMIT: a HEARD record whose silence count would reach 3 becomes FREE (R27). -/
  | silenceLimit
  /-- ROUND_BOUNDARY: the slot counter has passed to slot 0 (R16). -/
  | roundBoundary
  /-- START_OF_SLOT: the new slot starts (R19). -/
  | startOfSlot
  /-- LISTEN_END: the listening count's reaction to a round boundary (R47). -/
  | listenEnd
  /-- LEAVING_LIMIT: the leaving count's reaction to a round boundary (R51). -/
  | leavingLimit
  /-- HOST_LOST: the host-loss timer's reaction to a round boundary (R55). -/
  | hostLost
  /-- STALE_AGE: the image unit's reaction to a round boundary (R108). -/
  | staleAge
  /-- ANSWER_WAIT_EXPIRY: the request unit's reaction to a round boundary (R137). -/
  | answerWaitExpiry
  /-- ROUND_TRIGGER: the reaction of the units' period counts to a round boundary (R149). -/
  | roundTrigger
  /-- DEADLINE_PASSED: the collecting unit's reaction to a round boundary (R156). -/
  | deadlinePassed
  /-- DISCOVERY_ENTRY: the peer unit gives a free discovery place to a peer that needs discovery (R91). -/
  | discoveryEntry
deriving DecidableEq, Repr, Inhabited

end Sys2Proof
end

