-- ==== Sys2Proof/WellFormed.lean ====
section
/-! DEFINITION. Which commands are well formed: what a sender that keeps to the manual can send. The machine gives every
command an effect, well formed or not. -/

namespace Sys2Proof

/-- The command codes of section 10.4 are 01h to 1Ch. -/
def commandCode (code : Byte) : Bool := 1 ≤ code.toNat && code.toNat ≤ 28

/-- Well-formed commands: bits 30..24 of a command word are zero (R164); an unknown code is no code of the table;
a refused write has bit 31 clear and is not RESET (R166); a window write to COMMAND has bit 31 set (R165), since every other
write to COMMAND is a row of its own; STATUS_READ samples STATUS; and the last level of an event of bus time is the one that event
needs (R2, R14, R15, R21). -/
def Instr.wellFormed : Instr → Bool
  | .reset top _ => top == 0
  | .configure top _ => top == 0
  | .definePoint top _ => top == 0
  | .clearCatalogue top _ => top == 0
  | .join top _ => top == 0
  | .leave top _ => top == 0
  | .setCondition top _ => top == 0
  | .feed top _ => top == 0
  | .setPoint top _ => top == 0
  | .getPoint top _ => top == 0
  | .subscribe top _ => top == 0
  | .unsubscribe top _ => top == 0
  | .readImage top _ => top == 0
  | .setWatch top _ => top == 0
  | .clearWatch top _ => top == 0
  | .readPeer top _ => top == 0
  | .readShape top _ => top == 0
  | .refreshPeer top _ => top == 0
  | .readSlot top _ => top == 0
  | .sendRequest top _ => top == 0
  | .takeResult top _ => top == 0
  | .cancelRequest top _ => top == 0
  | .setSnapshot top _ => top == 0
  | .fireSnapshot top _ => top == 0
  | .rearmSnapshot top _ => top == 0
  | .readSnapshot top _ => top == 0
  | .takeEvent top _ => top == 0
  | .readCounters top _ => top == 0
  | .unknownCommandCode top code _ => top == 0 && !commandCode code
  | .commandWriteRefused word => !word.msb && word.extractLsb' 16 8 != 1
  | .commandCompletion => true
  | .resetComplete => true
  | .statusRead address => address == 2
  | .windowWrite address word => address != 0 || word.msb
  | .resetnAssert => true
  | .resetnRelease => true
  | .trigEdge _ => true
  | .startBitTaken _ last => last == .dominant
  | .arrivalEnd _ last => last == .recessive
  | .arbitrationLoss _ _ => true
  | .sendPoint _ _ => true
  | .transmissionSent _ last => last == .recessive
  | .holdBegin _ last => last == .dominant
  | .holdEnd _ last => last == .recessive
  | .endOfSlot _ _ => true
  | .silenceLimit => true
  | .roundBoundary => true
  | .startOfSlot => true
  | .listenEnd => true
  | .leavingLimit => true
  | .hostLost => true
  | .staleAge => true
  | .answerWaitExpiry => true
  | .roundTrigger => true
  | .deadlinePassed => true
  | .discoveryEntry => true

end Sys2Proof
end

