-- ==== Sys2Proof/Machine/State.lean ====
section
/-! DEFINITION. Everything the manual gives the controller, block by block, as plain data, and the machine right after reset. -/

namespace Sys2Proof.Machine

/-! ### Points, frames and answers (chapters 1 and 4) -/

/-- The widths a point may have (R58). -/
inductive Width where
  | w1 | w8 | w16 | w32
deriving DecidableEq, Repr, Inhabited

/-- How a point's bits are read (R58). -/
inductive Format where
  | unsigned | signed | flags
deriving DecidableEq, Repr, Inhabited

/-- Which way a point's value moves (R58). -/
inductive Direction where
  | published | accepted | both
deriving DecidableEq, Repr, Inhabited

/-- A point descriptor (R58). -/
structure Descriptor where
  width : Width
  format : Format
  direction : Direction
  low : Word
  high : Word
  name : List Byte
  unit : List Byte
deriving DecidableEq, Repr, Inhabited

/-- The three kinds of request (R5). -/
inductive RequestKind where
  | readEntry | readPoint | writePoint
deriving DecidableEq, Repr, Inhabited

/-- The outcomes an answer carries (R6). -/
inductive AnswerOutcome where
  | ok | catalogueEnd | noPoint | notAccepted | outOfRange
deriving DecidableEq, Repr, Inhabited

/-- What an answer carries beside its outcome (R6). -/
inductive Content where
  | nothing
  | value (v : Word)
  | count (n : Nat)
  | descriptor (d : Descriptor)
deriving DecidableEq, Repr, Inhabited

/-- The three condition flags (R5, R53). -/
structure Cond where
  hostLost : Bool
  leaving : Bool
  localFault : Bool
deriving DecidableEq, Repr, Inhabited

/-- The two kinds of frame (R5). -/
inductive FrameKind where
  | slotFrame | claimFrame
deriving DecidableEq, Repr, Inhabited

/-- The request section of a slot frame; a value is carried for WRITE_POINT only (R5). -/
structure RequestSection where
  tag : Nat
  target : Nat
  kind : RequestKind
  index : Nat
  value : Option Word
deriving DecidableEq, Repr, Inhabited

/-- The answer section of a slot frame (R6). -/
structure AnswerSection where
  tag : Nat
  requester : Nat
  kind : RequestKind
  index : Nat
  outcome : AnswerOutcome
  content : Content
deriving DecidableEq, Repr, Inhabited

/-- A frame by its named fields (R5); the CRC is not a field of its own. -/
structure Frame where
  kind : FrameKind
  source : Nat
  slot : Nat
  plan : Nat
  sequence : Byte
  cond : Cond
  request : Option RequestSection
  answer : Option AnswerSection
  data : List Byte
deriving DecidableEq, Repr, Inhabited

/-- The class of an arrival (R9). -/
inductive ArrivalClass where
  | good | badCrc | format | planMismatch
deriving DecidableEq, Repr, Inhabited

/-! ### Line unit (chapter 1) -/

/-- Where the receiver stands inside an arrival (R2): reading data bits, that many of them taken into `bits`; at the stop bit
that follows them; so many recessive bit times after a stop bit; or, a stop bit having been missing, so many recessive bit times
into the run that ends the arrival. -/
inductive ReadPhase where
  | data (taken : Nat) (bits : Byte)
  | stop (bits : Byte)
  | gap (run : Nat)
  | broken (run : Nat)
deriving DecidableEq, Repr, Inhabited

/-- An arrival in progress (R2): the slot the slot counter showed at its first start bit (none in OFF, R12), whether it is this
station's own arrival (R11), the bytes kept, and the marks for more bytes than are kept and for a lost stop bit. -/
structure Reception where
  slot : Option Nat
  own : Bool
  bytes : List Byte
  overlong : Bool
  missing : Bool
  phase : ReadPhase
deriving DecidableEq, Repr, Inhabited

/-- The receiver (R2): waiting for a frame, or inside an arrival. -/
inductive Receiver where
  | waiting
  | inside (r : Reception)
deriving DecidableEq, Repr, Inhabited

/-- Before its send point a frame is assembled; from its first start bit it is being sent, so many of its bit times having gone
out (R1, R19). -/
inductive TxPhase where
  | assembled
  | sending (sent : Nat)
deriving DecidableEq, Repr, Inhabited

/-- A transmission (R20): the frame fixed at assembly, the answer and the request record it carries (by the numbers the
model knows them by), whether the end of its slot has been processed since (R31), and whether the station has entered OFF since its first
start bit, so that it gives no LOST report (R21). -/
structure Transmission where
  kind : FrameKind
  slot : Nat
  bytes : List Byte
  answer : Option Nat
  request : Option Nat
  phase : TxPhase
  slotEnded : Bool
  offSince : Bool
deriving DecidableEq, Repr, Inhabited

/-- The line unit (chapter 1): `rxd` is the level RXD showed last and `run` the bit times of its unbroken run, measured from the
end of reset (R14, R15); `lost` holds the LOST transmissions whose winner's arrival has not ended (R21). -/
structure LineUnit where
  rxd : Level
  run : Nat
  receiver : Receiver
  tx : Option Transmission
  lost : List Transmission
  sequence : Byte
  hold : Bool
  good : Half
  badCrc : Half
  format : Half
  planMismatch : Half
  arbitrationLosses : Half
  holds : Half
deriving DecidableEq, Repr, Inhabited

/-! ### Slot unit (chapters 1 and 2) -/

/-- The state of a slot record with the fields that belong to it (R22). -/
inductive SlotState where
  | free
  | heard (owner silence : Nat)
  | claiming (clean : Nat)
  | owned (clash : Nat)
deriving DecidableEq, Repr, Inhabited

/-- A record of the slot map (R22). -/
structure SlotRecord where
  state : SlotState
  activityThis : Bool
  activityLast : Bool
  ownerHeard : Bool
deriving DecidableEq, Repr, Inhabited

/-- The slot unit (R16, R22, R25, R29). -/
structure SlotUnit where
  timer : BitVec 10
  counter : Nat
  round : Half
  map : List SlotRecord
  starved : Bool
  outOfStep : Half
deriving DecidableEq, Repr, Inhabited

/-! ### Station control (chapter 3) -/

/-- The six station states (section 3.2). -/
inductive StationState where
  | off | listening | claiming | member | observer | leaving
deriving DecidableEq, Repr, Inhabited

/-- The configuration block (R43). -/
structure Configuration where
  station : Nat
  slots : Nat
  rate : Nat
  want : Nat
  timeout : Nat
deriving DecidableEq, Repr, Inhabited

/-- Station control (R43, R47, R51, R53, R55). -/
structure StationControl where
  config : Configuration
  state : StationState
  listening : Nat
  leaving : Nat
  hostLoss : Nat
  cond : Cond
deriving DecidableEq, Repr, Inhabited

/-! ### Publication unit (chapter 4) -/

/-- One entry of the local catalogue with its place in the publish table: the point's value and last writer (R59, R63). -/
structure Point where
  descriptor : Descriptor
  value : Word
  writer : Nat
deriving DecidableEq, Repr, Inhabited

/-- An answer of the answer queue (R74); `id` is the number the model knows it by (log 21). -/
structure Answer where
  id : Nat
  requester : Nat
  tag : Nat
  kind : RequestKind
  index : Nat
  outcome : AnswerOutcome
  content : Content
deriving DecidableEq, Repr, Inhabited

/-- The publication unit (R59, R63, R74, R77). -/
structure Publication where
  catalogue : List Point
  answers : List Answer
  dropped : Half
  notServed : Half
  broadcastIgnored : Half
deriving DecidableEq, Repr, Inhabited

/-! ### Peer unit (chapter 5) -/

/-- A peer's presence (R78). -/
inductive Presence where
  | unseen | present | absent
deriving DecidableEq, Repr, Inhabited

/-- The four catalogue states (section 5.5). -/
inductive CatalogueState where
  | unknown | fetching | known | failed
deriving DecidableEq, Repr, Inhabited

/-- A learned shape (R86). -/
structure Shape where
  width : Width
  format : Format
  direction : Direction
deriving DecidableEq, Repr, Inhabited

/-- The published bits and the layout of a KNOWN catalogue: an offset for each published point (R89). -/
structure PeerLayout where
  bits : Nat
  offsets : List (Option Nat)
deriving DecidableEq, Repr, Inhabited

/-- The sticky faults (R85). -/
structure Faults where
  planMismatch : Bool
  layoutMismatch : Bool
  catalogueConflict : Bool
deriving DecidableEq, Repr, Inhabited

/-- A record of the peer table (R78). -/
structure PeerRecord where
  presence : Presence
  heardSlots : Nat
  wentAbsent : Bool
  lastCond : Cond
  lastSequence : Option Byte
  framesMissed : Byte
  faults : Faults
  catalogue : CatalogueState
  shapes : List (Option Shape)
  count : Option Nat
  layout : Option PeerLayout
  fetchFailures : Byte
deriving DecidableEq, Repr, Inhabited

/-! ### Image unit (chapters 6 and 7) -/

/-- Why a FAILED entry cannot be served (R99). -/
inductive FailReason where
  | noCatalogue | noPoint | notPublished
deriving DecidableEq, Repr, Inhabited

/-- The states of an image entry (R99). -/
inductive EntryState where
  | free | resolving | waiting | fresh | stale | lost
  | failed (reason : FailReason)
deriving DecidableEq, Repr, Inhabited

/-- Where an entry's point lies in its publisher's data section (R99). -/
structure EntryLayout where
  offset : Nat
  width : Width
  format : Format
deriving DecidableEq, Repr, Inhabited

/-- The zones of a watch (R117). -/
inductive Zone where
  | unknown | below | inside | above
deriving DecidableEq, Repr, Inhabited

/-- A watch (R117). -/
structure Watch where
  low : Word
  high : Word
  enterBelow : Bool
  enterInside : Bool
  enterAbove : Bool
  zone : Zone
deriving DecidableEq, Repr, Inhabited

/-- An entry of the image table (R99). -/
structure ImageEntry where
  state : EntryState
  source : Nat
  point : Nat
  staleLimit : Nat
  age : Nat
  value : Word
  updates : Half
  fallback : Option Word
  layout : Option EntryLayout
  watch : Option Watch
deriving DecidableEq, Repr, Inhabited

/-! ### Request unit (chapter 8) -/

/-- Who entered a request record (R127). -/
inductive Origin where
  | application | discovery
deriving DecidableEq, Repr, Inhabited

/-- The states of a request record (R127). -/
inductive RequestState where
  | waiting | sent | answered | failed
deriving DecidableEq, Repr, Inhabited

/-- How a request record ended (R127). -/
inductive RequestOutcome where
  | answer (o : AnswerOutcome)
  | noAnswer | targetGone | chainBroken | aborted | broadcastSent
deriving DecidableEq, Repr, Inhabited

/-- A record of the request list (R127). `predecessor` is the number of the record this one waits for: the chain flag
is set exactly when there is one. `id` is the number the model knows the record by (log 21). -/
structure RequestRecord where
  id : Nat
  tag : Nat
  origin : Origin
  target : Nat
  kind : RequestKind
  index : Nat
  value : Option Word
  predecessor : Option Nat
  check : Bool
  state : RequestState
  attempts : Nat
  wait : Nat
  outcome : Option RequestOutcome
  content : Content
deriving DecidableEq, Repr, Inhabited

/-- The request unit (R127, R128, R140). -/
structure RequestUnit where
  list : List RequestRecord
  tagCounter : Nat
  lateAnswers : Half
deriving DecidableEq, Repr, Inhabited

/-! ### Snapshot units (chapter 9) -/

/-- The two units. -/
inductive UnitId where
  | a | b
deriving DecidableEq, Repr, Inhabited

/-- The states of a snapshot unit (R148). -/
inductive UnitState where
  | off | armed | pending | collecting | spent
deriving DecidableEq, Repr, Inhabited

/-- What starts a collection (R148); for PIN, `rising` tells the edge. -/
inductive Trigger where
  | nothing
  | command
  | round (period : Nat)
  | pin (rising : Bool)
  | watch (entry : Nat)
deriving DecidableEq, Repr, Inhabited

/-- The summaries NONE, COMPLETE, PARTIAL and ABORTED (R148). -/
inductive Summary where
  | nothing | complete | incomplete | aborted
deriving DecidableEq, Repr, Inhabited

/-- The status of a place (R148). -/
inductive PlaceStatus where
  | pending | captured | missing
deriving DecidableEq, Repr, Inhabited

/-- A place of a snapshot's result (R148). -/
structure Place where
  entry : Nat
  status : PlaceStatus
  value : Word
  stamp : Half
deriving DecidableEq, Repr, Inhabited

/-- A snapshot unit (R148). Three fields are the model's own (log 22): `deadlineDue`, a boundary counted while this
collection was in course and not yet added to its deadline count (R156); `begunNow`, set from the beginning of a collection to the
end of the moment it began in (R156); and `passOver`, set while the arrival at whose end this collection began is being taken
(R154). -/
structure SnapshotUnit where
  state : UnitState
  set : List Nat
  trigger : Trigger
  periodCount : Nat
  hold : Bool
  oneShot : Bool
  deadline : Nat
  deadlineCount : Nat
  start : Half
  summary : Summary
  places : List Place
  ignored : Half
  deadlineDue : Bool
  begunNow : Bool
  passOver : Bool
deriving DecidableEq, Repr, Inhabited

/-! ### Host link (chapter 10) -/

/-- The kinds of event (R168). -/
inductive EventKind where
  | slot | station | peer | entry | watch | request | snapshot | peerWrite
deriving DecidableEq, Repr, Inhabited

/-- An event record (R168). -/
structure EventRecord where
  kind : EventKind
  code : Nat
  subject : Nat
  detail : Nat
  value : Word
  stamp : Half
deriving DecidableEq, Repr, Inhabited

/-- The result codes (section 10.2). -/
inductive ResultCode where
  | ok | badArgument | wrongState | full | notFound | busy | empty
deriving DecidableEq, Repr, Inhabited

/-- The running command (R165): the word as written, the arguments copied at the taking, its result, and the words it
returns, which are always the first ARG words. -/
structure Running where
  word : Word
  args : List Word
  result : ResultCode
  returned : List Word
deriving DecidableEq, Repr, Inhabited

/-- A reset in course (R172, R173): none, running with the word COMMAND reads, or held by RESETN. -/
inductive ResetPhase where
  | idle
  | running (word : Word)
  | held
deriving DecidableEq, Repr, Inhabited

/-- The host link (R163 to R168). `shiftOut` is the word sampled last for a read and shifted out on SDO. -/
structure HostLink where
  args : List Word
  result : Word
  running : Option Running
  refused : Bool
  events : List EventRecord
  lostEvents : Byte
  resetting : ResetPhase
  shiftOut : Word
deriving DecidableEq, Repr, Inhabited

/-- The TRIG pin's level, and the level the controller follows for the PIN triggers (R149, R173). -/
structure Trig where
  pin : Bool
  followed : Bool
deriving DecidableEq, Repr, Inhabited

/-- THE MODEL'S OWN (log 2): the reactions of the present moment that have not been taken yet: the silence limit of a slot
that has ended (R27), the passage to slot 0 (R16), the start of the slot (R19), and each block's reaction to a round
boundary that has been counted. -/
structure Due where
  silence : Option Nat
  boundary : Bool
  start : Bool
  listen : Bool
  leaving : Bool
  host : Bool
  ages : Bool
  waits : Bool
  periods : Bool
deriving DecidableEq, Repr, Inhabited

/-- The controller. `due`, `called`, `began`, `order`, `freeCount`, `serial`, `raised`, `inArrival` and `pending` are the model's own
(INVENTORY.md); `called` is the number of triggers that reached B in this moment while the collector was free and both units ARMED, which
wait for the moment's end in case A is triggered in it too, and `began` tells that A answered a trigger of this moment by beginning a
collection (R149, R152, log 20). -/
structure State where
  line : LineUnit
  slot : SlotUnit
  ctl : StationControl
  pub : Publication
  peers : List PeerRecord
  image : List ImageEntry
  req : RequestUnit
  unitA : SnapshotUnit
  unitB : SnapshotUnit
  host : HostLink
  trig : Trig
  due : Due
  called : Nat
  began : Bool
  order : Order
  freeCount : Nat
  serial : Nat
  raised : List EventRecord
  inArrival : Bool
  pending : List Instr
deriving DecidableEq, Repr

/-- Faults: the manual names no condition that stops the controller, so there is none (INVENTORY.md, Faults). -/
inductive Fault where
deriving DecidableEq, Repr

/-- Refusals. -/
inductive Refusal where
  /-- Raised by an arm of exec whose command has no meaning yet: safe. No arm raises it. -/
  | notModelled (mnemonic : String)
deriving DecidableEq, Repr

/-! ### The values after reset -/

def Cond.clear : Cond := ⟨false, false, false⟩

def Faults.clear : Faults := ⟨false, false, false⟩

/-- R2, R13, R15, R20: both measures start afresh. -/
def LineUnit.reset : LineUnit := ⟨.recessive, 0, .waiting, none, [], 0, false, 0, 0, 0, 0, 0, 0⟩

/-- A FREE record with every count 0 and every flag clear (R22). -/
def SlotRecord.reset : SlotRecord := ⟨.free, false, false, false⟩

/-- R43. -/
def Configuration.reset : Configuration := ⟨0, 16, 1, 1, 0⟩

/-- R16, R22, R25, R29. -/
def SlotUnit.reset : SlotUnit := ⟨0, 0, 0, List.replicate 16 SlotRecord.reset, false, 0⟩

/-- R43, R45, R47, R51, R53, R55. -/
def StationControl.reset : StationControl := ⟨Configuration.reset, .off, 0, 0, 0, Cond.clear⟩

/-- R59, R63, R74, R77. -/
def Publication.reset : Publication := ⟨[], [], 0, 0, 0⟩

/-- The last column of R78's table. -/
def PeerRecord.reset : PeerRecord :=
  ⟨.unseen, 0, false, Cond.clear, none, 0, Faults.clear, .unknown, List.replicate 32 none, none, none, 0⟩

/-- The last column of R99's table. -/
def ImageEntry.free : ImageEntry := ⟨.free, 0, 0, 0, 0, 0, 0, none, none, none⟩

/-- R127, R128, R140. -/
def RequestUnit.reset : RequestUnit := ⟨[], 15, 0⟩

/-- The last column of R148's table. -/
def SnapshotUnit.reset : SnapshotUnit :=
  ⟨.off, [], .nothing, 0, false, false, 1, 0, 0, .nothing, [], 0, false, false, false⟩

/-- R164, R166, R168, R172: RESULT holds OK with code 01h and operand 0. -/
def HostLink.reset : HostLink := ⟨List.replicate 8 0, 0x01010000, none, false, [], 0, .idle, 0⟩

def Due.none : Due := ⟨.none, false, false, false, false, false, false, false, false⟩

/-- The machine right after reset (R172), the TRIG pin low (DESIGN CHOICE, log 16), the word being shifted out 0 (DESIGN
CHOICE, log 17) and the free choices those of the first draw (log 5). -/
def State.reset : State where
  line := LineUnit.reset
  slot := SlotUnit.reset
  ctl := StationControl.reset
  pub := Publication.reset
  peers := List.replicate 32 PeerRecord.reset
  image := List.replicate 128 ImageEntry.free
  req := RequestUnit.reset
  unitA := SnapshotUnit.reset
  unitB := SnapshotUnit.reset
  host := HostLink.reset
  trig := ⟨false, false⟩
  due := Due.none
  called := 0
  began := false
  order := Config.order 0
  freeCount := 1
  serial := 0
  raised := []
  inArrival := false
  pending := []

end Sys2Proof.Machine
end

