-- ==== Sys2Proof/Machine/Ops.lean ====
section
/-! DEFINITION. The named operations over State that every block uses: one update per block, saturating counters, the raising of
events and their entry into the queue, and what ends a step. -/

namespace Sys2Proof.Machine

/-! ### One update per block -/

def State.modLine (f : LineUnit → LineUnit) (s : State) : State := { s with line := f s.line }
def State.modSlot (f : SlotUnit → SlotUnit) (s : State) : State := { s with slot := f s.slot }
def State.modCtl (f : StationControl → StationControl) (s : State) : State := { s with ctl := f s.ctl }
def State.modPub (f : Publication → Publication) (s : State) : State := { s with pub := f s.pub }
def State.modReq (f : RequestUnit → RequestUnit) (s : State) : State := { s with req := f s.req }
def State.modHost (f : HostLink → HostLink) (s : State) : State := { s with host := f s.host }
def State.modDue (f : Due → Due) (s : State) : State := { s with due := f s.due }

/-- The snapshot unit of a name. -/
def State.unit (s : State) : UnitId → SnapshotUnit
  | .a => s.unitA
  | .b => s.unitB

def State.modUnit (u : UnitId) (f : SnapshotUnit → SnapshotUnit) (s : State) : State :=
  match u with
  | .a => { s with unitA := f s.unitA }
  | .b => { s with unitB := f s.unitB }

/-- The record of a slot; a slot beyond the map reads FREE and clear. -/
def State.slotAt (s : State) (k : Nat) : SlotRecord := s.slot.map.getD k SlotRecord.reset

def State.modSlotAt (k : Nat) (f : SlotRecord → SlotRecord) (s : State) : State :=
  s.modSlot fun u => { u with map := u.map.modify k f }

/-- The record of a peer, by station number. -/
def State.peer (s : State) (n : Nat) : PeerRecord := s.peers.getD (n - 1) PeerRecord.reset

/-- Changes a peer's record. The record of this station's own number is passed over (R78). -/
def State.modPeer (n : Nat) (f : PeerRecord → PeerRecord) (s : State) : State :=
  if n = 0 ∨ n = s.ctl.config.station then s else { s with peers := s.peers.modify (n - 1) f }

/-- An entry of the image table; an index beyond the table reads FREE. -/
def State.entry (s : State) (i : Nat) : ImageEntry := s.image.getD i ImageEntry.free

def State.modEntry (i : Nat) (f : ImageEntry → ImageEntry) (s : State) : State :=
  { s with image := s.image.modify i f }

/-! ### Counters -/

/-- A counter that saturates adds 1, or stays at its largest value (00, Conventions). -/
def satInc {w : Nat} (x : BitVec w) : BitVec w := if x = BitVec.allOnes w then x else x + 1

/-- Saturating at a value that is not the largest of a bit width (an entry's age, R99). -/
def satIncTo (limit n : Nat) : Nat := if limit ≤ n then n else n + 1

/-! ### Events -/

/-- The block that raises an event of this kind and code; a hold's events come from the line unit (R57, R168). -/
def EventRecord.block (e : EventRecord) : Nat :=
  match e.kind with
  | .slot => 1
  | .station => if e.code = 4 ∨ e.code = 5 then 0 else 2
  | .peer => 3
  | .entry => 4
  | .watch => 4
  | .request => 5
  | .snapshot => 6
  | .peerWrite => 7

/-- Raises an event with the round stamp of this moment (R168). It enters the queue when the step ends. -/
def raise (kind : EventKind) (code subject detail : Nat) (value : Word) (s : State) : State :=
  { s with raised := s.raised ++ [⟨kind, code, subject, detail, value, s.slot.round⟩] }

/-- Events raised together, in the order they enter the queue: each block's own in the order it raised them, those of
different blocks in the order the free choices give (R168, log 6). -/
def interleave : Nat → List Nat → List EventRecord → List EventRecord
  | 0, _, es => es
  | _ + 1, _, [] => []
  | n + 1, picks, e :: es =>
    if es.all (·.block == e.block) then e :: es
    else
      let pick := ((e :: es).getD (picks.headD 0 % (es.length + 1)) e).block
      ((e :: es).find? (·.block == pick)).getD e :: interleave n picks.tail ((e :: es).eraseP (·.block == pick))

/-- An event enters the queue, or is discarded and counted when the queue holds 32 records (R168). -/
def enterEvent (h : HostLink) (e : EventRecord) : HostLink :=
  if h.events.length < Config.maxEvents then { h with events := h.events ++ [e] }
  else { h with lostEvents := satInc h.lostEvents }

/-- The events of this step enter the queue. -/
def flushEvents (s : State) : State :=
  if s.raised.isEmpty then s
  else
    { s with
      host := (interleave s.raised.length s.order.eventPicks s.raised).foldl enterEvent s.host
      raised := [] }

/-- The free choices for the next step that reads them (log 5). -/
def freshOrder (s : State) : State := { s with order := Config.order s.freeCount, freeCount := s.freeCount + 1 }

/-- What ends a step that may have raised events or read free choices. -/
def finish (s : State) : State := freshOrder (flushEvents s)

/-! ### Whether the blocks react -/

/-- While a reset runs or RESETN is held low, no block reacts to arrivals, to TRIG or to time (R172, R173). -/
def whenLive (f : State → State) (s : State) : State :=
  if s.host.resetting = .idle then f s else s

/-! ### Numbers the model knows records by (log 21) -/

def State.takeSerial (s : State) : State := { s with serial := s.serial + 1 }

end Sys2Proof.Machine
end

