-- ==== Sys2Proof/Machine/Operands.lean ====
section
/-! DEFINITION. How operands are read and written: the bytes and halves of window words, the codes of widths, formats,
directions, kinds and outcomes (R6), and the tests a value is put to (R58, R64, R71, R118). -/

namespace Sys2Proof.Machine

/-! ### Words and their parts -/

/-- Byte `k` of a word, 0 the least significant. -/
def byteOf (w : Word) (k : Nat) : Byte := w.extractLsb' (8 * k) 8

/-- Four small numbers in a word, the first in the most significant byte. -/
def pack4 (a b c d : Nat) : Word := BitVec.ofNat 8 a ++ BitVec.ofNat 8 b ++ BitVec.ofNat 8 c ++ BitVec.ofNat 8 d

/-- Two numbers in the upper and the lower half of a word. -/
def pack2 (hi lo : Nat) : Word := BitVec.ofNat 16 hi ++ BitVec.ofNat 16 lo

/-- Argument `i` of a command's copied arguments (R165). -/
def arg (args : List Word) (i : Nat) : Word := args.getD i 0

def argN (args : List Word) (i : Nat) : Nat := (arg args i).toNat

/-- The characters held in words, the first in the most significant byte of the first. -/
def charsOf (ws : List Word) : List Byte := ws.flatMap fun w => [byteOf w 3, byteOf w 2, byteOf w 1, byteOf w 0]

/-- Up to four characters in a word, the first in the most significant byte, the rest 0. -/
def packChars (cs : List Byte) : Word := cs.getD 0 0 ++ cs.getD 1 0 ++ cs.getD 2 0 ++ cs.getD 3 0

/-- Flags returned as 1 or 0. -/
def bit (b : Bool) : Nat := if b then 1 else 0

/-! ### Codes (R6 and the chapters' code tables) -/

def Width.bits : Width → Nat
  | .w1 => 1
  | .w8 => 8
  | .w16 => 16
  | .w32 => 32

def Width.ofNat? : Nat → Option Width
  | 1 => some .w1
  | 8 => some .w8
  | 16 => some .w16
  | 32 => some .w32
  | _ => none

def Format.code : Format → Nat
  | .unsigned => 0
  | .signed => 1
  | .flags => 2

def Format.ofNat? : Nat → Option Format
  | 0 => some .unsigned
  | 1 => some .signed
  | 2 => some .flags
  | _ => none

def Direction.code : Direction → Nat
  | .published => 1
  | .accepted => 2
  | .both => 3

def Direction.ofNat? : Nat → Option Direction
  | 1 => some .published
  | 2 => some .accepted
  | 3 => some .both
  | _ => none

def RequestKind.code : RequestKind → Nat
  | .readEntry => 1
  | .readPoint => 2
  | .writePoint => 3

def RequestKind.ofNat? : Nat → Option RequestKind
  | 1 => some .readEntry
  | 2 => some .readPoint
  | 3 => some .writePoint
  | _ => none

def AnswerOutcome.code : AnswerOutcome → Nat
  | .ok => 0
  | .catalogueEnd => 1
  | .noPoint => 2
  | .notAccepted => 3
  | .outOfRange => 4

def AnswerOutcome.ofNat? : Nat → Option AnswerOutcome
  | 0 => some .ok
  | 1 => some .catalogueEnd
  | 2 => some .noPoint
  | 3 => some .notAccepted
  | 4 => some .outOfRange
  | _ => none

/-- R127. -/
def RequestOutcome.code : RequestOutcome → Nat
  | .answer o => o.code
  | .noAnswer => 5
  | .targetGone => 6
  | .chainBroken => 7
  | .aborted => 8
  | .broadcastSent => 9

/-- Section 3.2. -/
def StationState.code : StationState → Nat
  | .off => 0
  | .listening => 1
  | .claiming => 2
  | .member => 3
  | .observer => 4
  | .leaving => 5

/-- R95. -/
def Presence.code : Presence → Nat
  | .unseen => 0
  | .present => 1
  | .absent => 2

def CatalogueState.code : CatalogueState → Nat
  | .unknown => 0
  | .fetching => 1
  | .known => 2
  | .failed => 3

/-- R99. -/
def EntryState.code : EntryState → Nat
  | .free => 0
  | .resolving => 1
  | .waiting => 2
  | .fresh => 3
  | .stale => 4
  | .lost => 5
  | .failed _ => 6

def FailReason.code : FailReason → Nat
  | .noCatalogue => 1
  | .noPoint => 2
  | .notPublished => 3

/-- R117. -/
def Zone.code : Zone → Nat
  | .unknown => 1
  | .below => 2
  | .inside => 3
  | .above => 4

/-- R148. -/
def UnitState.code : UnitState → Nat
  | .off => 0
  | .armed => 1
  | .pending => 2
  | .collecting => 3
  | .spent => 4

def Summary.code : Summary → Nat
  | .nothing => 0
  | .complete => 1
  | .incomplete => 2
  | .aborted => 3

/-- R161: a pending place is never read, since a COLLECTING unit is BUSY. -/
def PlaceStatus.code : PlaceStatus → Nat
  | .pending => 0
  | .captured => 1
  | .missing => 2

/-- R148, R157. -/
def UnitId.code : UnitId → Nat
  | .a => 1
  | .b => 2

def UnitId.ofNat? : Nat → Option UnitId
  | 1 => some .a
  | 2 => some .b
  | _ => none

def UnitId.other : UnitId → UnitId
  | .a => .b
  | .b => .a

/-- R168. -/
def EventKind.code : EventKind → Nat
  | .slot => 1
  | .station => 2
  | .peer => 3
  | .entry => 4
  | .watch => 5
  | .request => 6
  | .snapshot => 7
  | .peerWrite => 8

/-- Section 10.2. -/
def ResultCode.code : ResultCode → Nat
  | .ok => 1
  | .badArgument => 2
  | .wrongState => 3
  | .full => 4
  | .notFound => 5
  | .busy => 6
  | .empty => 7

/-! ### Values against widths, formats and limits -/

/-- The low `width` bits of a value, the higher bits 0. -/
def lowBits (w : Width) (v : Word) : Word := v &&& BitVec.ofNat 32 (2 ^ w.bits - 1)

/-- The low `width` bits of a value as a 32-bit number of the format: zero-extended, or sign-extended for SIGNED (R58). -/
def extend (w : Width) (f : Format) (v : Word) : Word :=
  match f with
  | .signed => if v.getLsbD (w.bits - 1) then v ||| ~~~ BitVec.ofNat 32 (2 ^ w.bits - 1) else lowBits w v
  | .unsigned => lowBits w v
  | .flags => lowBits w v

/-- A number fits a width and format when it is the extension of its low bits (R58). -/
def fits (w : Width) (f : Format) (v : Word) : Bool := extend w f v == v

/-- Less than, in a point's format: signed numbers for SIGNED, unsigned numbers otherwise (R118). -/
def lessThan (f : Format) (x y : Word) : Bool :=
  match f with
  | .signed => x.slt y
  | .unsigned => x.ult y
  | .flags => x.ult y

/-- A value lies within low to high, compared in the point's format; a FLAGS point is not judged (R64, R71). -/
def withinLimits (d : Descriptor) (v : Word) : Bool :=
  match d.format with
  | .flags => true
  | .signed => !lessThan .signed v d.low && !lessThan .signed d.high v
  | .unsigned => !lessThan .unsigned v d.low && !lessThan .unsigned d.high v

/-- A direction that is sent in data sections (R59, R67). -/
def Direction.sent : Direction → Bool
  | .published => true
  | .accepted => false
  | .both => true

end Sys2Proof.Machine
end

