-- ==== Sys2Proof/Machine/Flags.lean ====
section
/-! DEFINITION. The flag words: the condition byte of a frame (R5), the set of sticky faults (R85), the numbers of OWNED and CLAIMING
records (R40), STATUS (R167), and the output pins ATTN, TXE and SDO (R1, R163, R170, R173); TXD stands with the
receiver (Receiver.lean). -/

namespace Sys2Proof.Machine

/-- The condition byte: bit 0 HOST_LOST, bit 1 LEAVING, bit 2 LOCAL_FAULT (frame layout table). -/
def Cond.code (c : Cond) : Nat := bit c.hostLost + 2 * bit c.leaving + 4 * bit c.localFault

def Cond.ofByte (b : Byte) : Cond := ⟨b.getLsbD 0, b.getLsbD 1, b.getLsbD 2⟩

/-- The sticky faults held, added together (R85). -/
def Faults.code (f : Faults) : Nat := bit f.planMismatch + 2 * bit f.layoutMismatch + 4 * bit f.catalogueConflict

def SlotState.isOwned : SlotState → Bool
  | .owned _ => true
  | .free => false
  | .heard _ _ => false
  | .claiming _ => false

def SlotState.isClaiming : SlotState → Bool
  | .claiming _ => true
  | .free => false
  | .heard _ _ => false
  | .owned _ => false

/-- The owner of a HEARD record (R22). -/
def SlotState.owner? : SlotState → Option Nat
  | .heard o _ => some o
  | .free => none
  | .claiming _ => none
  | .owned _ => none

/-- The number of OWNED records (R40). -/
def State.ownedCount (s : State) : Nat := s.slot.map.countP (·.state.isOwned)

/-- The number of CLAIMING records (R40). -/
def State.claimingCount (s : State) : Nat := s.slot.map.countP (·.state.isClaiming)

/-- STATUS as it stands (R167; layout in section 10.2). -/
def State.statusWord (s : State) : Word :=
  0#4 ++ BitVec.ofBool s.ctl.cond.localFault ++ BitVec.ofBool s.host.refused ++ BitVec.ofBool s.line.hold
    ++ BitVec.ofBool s.ctl.cond.hostLost ++ 0#2 ++ BitVec.ofNat 6 s.host.events.length ++ 0#5
    ++ BitVec.ofNat 3 s.claimingCount ++ 0#1 ++ BitVec.ofNat 3 s.ownedCount ++ 0#1 ++ BitVec.ofNat 3 s.ctl.state.code

/-- ATTN is low while the event queue holds a record; it is high while RESETN is held low (R170). True is high. -/
def State.attnHigh (s : State) : Bool := s.host.events.isEmpty || s.host.resetting == .held

/-- Its first start bit has gone onto the line (R1, R19). -/
def TxPhase.isSending : TxPhase → Bool
  | .assembled => false
  | .sending _ => true

/-- TXE is on from the first start bit of a transmission to its end (R1). -/
def State.txeOn (s : State) : Bool := s.line.tx.any (·.phase.isSending)

/-- SDO, by the level of SCSN and the number of the bit of the word being read that SCK has come to, 0 the first: driven only
while SCSN is low and RESETN is not held, with the word sampled, most significant bit first (R163, R173). -/
def State.sdo (scsnLow : Bool) (bit : Nat) (s : State) : Option Bool :=
  if scsnLow = true ∧ s.host.resetting ≠ .held then some (s.host.shiftOut.getLsbD (31 - bit)) else none

end Sys2Proof.Machine
end

