-- ==== Sys2Proof/Machine/Collector.lean ====
section
/-! DEFINITION. The collector and the two snapshot units (chapter 9): triggers, the course of a collection, its end, and the units'
reactions to round boundaries and to entering OFF. -/

namespace Sys2Proof.Machine

/-- The unit that is COLLECTING, if there is one; at most one is (R152). -/
def State.collecting? (s : State) : Option UnitId :=
  if s.unitA.state = .collecting then some .a else if s.unitB.state = .collecting then some .b else none

/-- An entry that takes values: WAITING, FRESH or STALE (R153). -/
def EntryState.served : EntryState → Bool
  | .waiting => true
  | .fresh => true
  | .stale => true
  | .free => false
  | .resolving => false
  | .lost => false
  | .failed _ => false

def SnapshotUnit.noPending (u : SnapshotUnit) : Bool := u.places.all (·.status != .pending)

def SnapshotUnit.captured (u : SnapshotUnit) : Nat := u.places.countP (·.status == .captured)

def SnapshotUnit.missing (u : SnapshotUnit) : Nat := u.places.countP (·.status == .missing)

/-- A place at the beginning of a collection: pending, or MISSING at once when its entry takes no values (R153). -/
def startPlace (s : State) (i : Nat) : Place :=
  if (s.entry i).state.served then ⟨i, .pending, 0, 0⟩ else ⟨i, .missing, 0, s.slot.round⟩

/-- The unit takes the collector and its previous result is replaced (R153), its summary NONE until the end (log 19). A collection that begins
while an arrival is being taken captures nothing from it, whatever caused it to begin: R154's list of causes leaves some out, such as a
WATCH a substitution raises, and its first sentence and its law decide (DESIGN CHOICE, log 28). -/
def startCollection (u : UnitId) (s : State) : State :=
  s.modUnit u fun x =>
    { x with
      state := .collecting
      start := s.slot.round
      summary := .nothing
      places := x.set.map (startPlace s)
      deadlineCount := 0
      deadlineDue := false
      begunNow := true
      passOver := s.inArrival }

/-- A pending place becomes MISSING, with value 0 and the round counter as its stamp (R155, R156, R162). -/
def missPlace (stamp : Half) (p : Place) : Place :=
  if p.status = .pending then { p with status := .missing, value := 0, stamp := stamp } else p

/-- SNAPSHOT with the unit's summary (R157). -/
def raiseSnapshot (u : UnitId) (s : State) : State :=
  raise .snapshot (s.unit u).summary.code u.code (s.unit u).captured (BitVec.ofNat 32 (s.unit u).missing) s

/-- The collection of a unit with no pending place ends (R157); the other unit is not looked at here. -/
def closeCollection (u : UnitId) (s : State) : State :=
  raiseSnapshot u <| s.modUnit u fun x =>
    { x with
      state := if x.oneShot then .spent else .armed
      summary := if x.missing = 0 then .complete else .incomplete
      deadlineDue := false }

/-- A collection ends and a PENDING unit begins its own at once (R152, R157). -/
def endCollection (u : UnitId) (s : State) : State :=
  let s := closeCollection u s
  if (s.unit u.other).state = .pending then
    let s := startCollection u.other s
    if (s.unit u.other).noPending then closeCollection u.other s else s
  else s

/-- A collection with no place pending ends (R153, R157). -/
def judgeEnd (u : UnitId) (s : State) : State :=
  if (s.unit u).state = .collecting ∧ (s.unit u).noPending then endCollection u s else s

/-- A dropped trigger is counted (R151). -/
def dropTrigger (u : UnitId) (s : State) : State := s.modUnit u fun x => { x with ignored := satInc x.ignored }

/-- What a unit does with a trigger, by its state (R151). -/
def actTrigger (u : UnitId) (s : State) : State :=
  match (s.unit u).state with
  | .off => s
  | .spent => s
  | .armed =>
    if (s.unit u.other).state = .collecting then
      if (s.unit u).hold then s.modUnit u fun x => { x with state := .pending } else dropTrigger u s
    else startCollection u s
  | .pending => dropTrigger u s
  | .collecting => dropTrigger u s

/-- B acts on triggers one after another, each by the state the one before left it in (R151). -/
def answerCalls : Nat → State → State
  | 0, s => s
  | n + 1, s => answerCalls n (judgeEnd .b (actTrigger .b s))

/-- The triggers of B that waited in this moment are answered: A has been triggered too and collects, or the moment is over (R149, R152). -/
def answerCall (s : State) : State := answerCalls s.called { s with called := 0 }

/-- A trigger that reaches A begins a collection (R151). -/
def State.beginsA (s : State) : Bool := s.unitA.state == .armed && s.unitB.state != .collecting

/-- A trigger reaches A; the triggers of B that waited in the same moment are answered after it (R149, R152). -/
def triggerA (s : State) : State := answerCall (actTrigger .a { s with began := s.began || s.beginsA })

/-- A trigger reaches B. While both units are ARMED it waits for the end of the moment, since A would take the collector first if it were
triggered in the same moment (R149, R152, log 20). Where A was, and its collection has ended at its start, B was triggered while A
collected: with IGNORE it drops the trigger, with HOLD it was PENDING and begins at once (R152). -/
def triggerB (s : State) : State :=
  if s.called ≠ 0 then { s with called := s.called + 1 }
  else if s.began = false ∧ s.unitA.state = .armed ∧ s.unitB.state = .armed then { s with called := 1 }
  else if s.began = true ∧ s.unitB.state = .armed ∧ s.unitB.hold = false then dropTrigger .b s
  else actTrigger .b s

/-- The triggers one cause gives, A first (R149, R152): B is triggered while A collects, even when A's collection ends at its start. -/
def giveTriggers (toA toB : Bool) (s : State) : State :=
  let s := if toA then triggerA s else s
  let s := if toB then triggerB s else s
  let s := if toA then judgeEnd .a s else s
  if toB then judgeEnd .b s else s

/-- At the end of a moment in which A was not triggered, B takes the collector (R152), with the round counter and the entries as they stand
then (R153; DESIGN CHOICE, log 38); the next moment's triggers are not joined with this one's. -/
def takeCall (s : State) : State := { answerCall s with began := false }

/-- The image unit reports a value taken for an entry (R154). A collection begun by the arrival in course takes nothing. -/
def captureValue (i : Nat) (v : Word) (s : State) : State :=
  match s.collecting? with
  | none => s
  | some u =>
    if (s.unit u).passOver then s
    else
      judgeEnd u <| s.modUnit u fun x =>
        { x with
          places := x.places.map fun p =>
            if p.entry = i ∧ p.status = .pending then { p with status := .captured, value := v, stamp := s.slot.round }
            else p }

/-- The image unit reports an entry's passage into FREE, RESOLVING, LOST or FAILED (R155). -/
def missEntry (i : Nat) (s : State) : State :=
  match s.collecting? with
  | none => s
  | some u =>
    judgeEnd u <| s.modUnit u fun x =>
      { x with places := x.places.map fun p => if p.entry = i then missPlace s.slot.round p else p }

/-- On entering OFF the collection in course ends ABORTED and a PENDING unit becomes ARMED (R162). A trigger of this moment has reached its
unit before. -/
def collectorOff (s : State) : State :=
  let s := takeCall s
  let s :=
    match s.collecting? with
    | none => s
    | some u =>
      raiseSnapshot u <| s.modUnit u fun x =>
        { x with
          state := .armed
          summary := .aborted
          places := x.places.map (missPlace s.slot.round)
          deadlineDue := false }
  let disarm := fun x : SnapshotUnit => if x.state = .pending then { x with state := .armed } else x
  (s.modUnit .a disarm).modUnit .b disarm

/-! ### Reactions to a round boundary -/

/-- A boundary is counted for the collection in course, unless it began at that boundary's moment (R156). -/
def markDeadlines (s : State) : State :=
  let mark := fun x : SnapshotUnit => { x with deadlineDue := x.state = .collecting ∧ ¬x.begunNow }
  (s.modUnit .a mark).modUnit .b mark

/-- A unit's deadline count rises for a boundary counted; at the deadline its pending places become MISSING and the
collection ends (R156). -/
def takeUnitDeadline (u : UnitId) (s : State) : State :=
  if (s.unit u).deadlineDue then
    let s := s.modUnit u fun x => { x with deadlineDue := false, deadlineCount := x.deadlineCount + 1 }
    if (s.unit u).state = .collecting ∧ (s.unit u).deadline ≤ (s.unit u).deadlineCount then
      endCollection u (s.modUnit u fun x => { x with places := x.places.map (missPlace s.slot.round) })
    else s
  else s

/-- The deadlines' reaction to a boundary (R156). -/
def takeDeadline (s : State) : State := takeUnitDeadline .b (takeUnitDeadline .a s)

/-- A ROUND unit's period count after a boundary, and whether the boundary gives it a trigger (R149). -/
def SnapshotUnit.countPeriod (x : SnapshotUnit) : SnapshotUnit × Bool :=
  match x.trigger with
  | .round period =>
    if period ≤ x.periodCount + 1 then ({ x with periodCount := 0 }, true)
    else ({ x with periodCount := x.periodCount + 1 }, false)
  | .nothing => (x, false)
  | .command => (x, false)
  | .pin _ => (x, false)
  | .watch _ => (x, false)

/-- The moment in which a collection began is over (R156). -/
def pastBeginning (s : State) : State :=
  let pass := fun x : SnapshotUnit => { x with begunNow := false }
  (s.modUnit .a pass).modUnit .b pass

/-- The period counts' reaction to a boundary: both units' triggers reach the collector together (R149, R152). -/
def takePeriods (s : State) : State :=
  if s.due.periods then
    let s := s.modDue fun d => { d with periods := false }
    let ra := s.unitA.countPeriod
    let rb := s.unitB.countPeriod
    giveTriggers ra.2 rb.2 ((s.modUnit .a fun _ => ra.1).modUnit .b fun _ => rb.1)
  else s

/-! ### The commands of the units -/

/-- The trigger that SET_SNAPSHOT's code and parameter name, when they are in range (R158). -/
def triggerOf (code parameter : Nat) : Option Trigger :=
  match code with
  | 0 => some .nothing
  | 1 => some .command
  | 2 => if 1 ≤ parameter ∧ parameter ≤ 255 then some (.round parameter) else none
  | 3 => if parameter = 1 then some (.pin true) else if parameter = 2 then some (.pin false) else none
  | 4 => if parameter ≤ 127 then some (.watch parameter) else none
  | _ => none

end Sys2Proof.Machine
end

