-- ==== Sys2Proof/Machine/Image.lean ====
section
/-! DEFINITION. The image table and its watches (chapters 6 and 7): the evaluation of a watch, the passages of an entry, resolution, values,
aging, and the reactions to what the peer unit reports. -/

namespace Sys2Proof.Machine

/-! ### Watches (R118 to R121, R125) -/

/-- The zone of a value, by the two tests in order (R118). -/
def Watch.place (w : Watch) (f : Format) (v : Word) : Zone :=
  if lessThan f v w.low then .below else if lessThan f w.high v then .above else .inside

def Watch.armed (w : Watch) : Zone → Bool
  | .below => w.enterBelow
  | .inside => w.enterInside
  | .above => w.enterAbove
  | .unknown => false

/-- Whether an evaluation that gives this zone raises WATCH (R120). -/
def Watch.reports (w : Watch) (zone : Zone) : Bool :=
  zone != w.zone && w.armed zone && !(w.zone == .unknown && zone == .inside)

def triggeredBy (i : Nat) (x : SnapshotUnit) : Bool := x.trigger == .watch i

/-- Evaluates an entry's watch on its presented value, in a comparison format (R118, R119): the zone is taken, and WATCH is
raised when R120 says so, which triggers the units that name the entry (R125). -/
def evaluateWatch (i : Nat) (f : Format) (s : State) : State :=
  match (s.entry i).watch with
  | none => s
  | some w =>
    let v := (s.entry i).value
    let zone := w.place f v
    let s := s.modEntry i fun e => { e with watch := some { w with zone := zone } }
    if w.reports zone then
      giveTriggers (triggeredBy i s.unitA) (triggeredBy i s.unitB) (raise .watch zone.code i w.zone.code v s)
    else s

/-! ### Passages of an entry (R113, R115, R116, R121) -/

/-- States in which an entry holds no layout, whose entering is reported to the collector (R99, R116). -/
def EntryState.unserved (st : EntryState) : Bool := !st.served

def Watch.forget (w : Watch) : Watch := { w with zone := .unknown }

/-- An entry after its passage to another state: the fallback substitution when it leaves FRESH (R113), the layout given up
(R99), and the zone of a watch without fallback UNKNOWN outside FREE (R121). -/
def ImageEntry.pass (e : ImageEntry) (st : EntryState) : ImageEntry :=
  { e with
    state := st
    value := if e.state = .fresh then e.fallback.getD e.value else e.value
    layout := if st.unserved then none else e.layout
    watch := if st.unserved ∧ e.fallback = none then e.watch.map Watch.forget else e.watch }

/-- The two reports of one change of an entry, to its watch and to the collector, in the order the free choices give (R116). -/
def reportBoth (i : Nat) (toWatch toCollector : State → State) (s : State) : State :=
  if s.order.watchFirst.contains i then toCollector (toWatch s) else toWatch (toCollector s)

/-- The passage of an entry to another state, with the ENTRY event of that code when it raises one (R115). A substitution
is evaluated in the format of the layout held before (R119). -/
def passEntry (i : Nat) (st : EntryState) (event : Option Nat) (s : State) : State :=
  let e := s.entry i
  let s := s.modEntry i (·.pass st)
  let s :=
    match event with
    | some code => raise .entry code i e.state.code (s.entry i).value s
    | none => s
  reportBoth i
    (fun s =>
      match e.layout with
      | some l => if e.state = .fresh ∧ e.fallback ≠ none then evaluateWatch i l.format s else s
      | none => s)
    (fun s => if st.unserved then missEntry i s else s)
    s

/-- The image unit acts on each entry of which `p` holds, in order of index (R115), the reports of one entry to its watch and to the collector
(R116) coming before the next entry is changed: a trigger by a lower entry's WATCH reaches its unit before a higher entry's value is captured
or its place made MISSING. R124 orders the events so; R126 ranks no watch's evaluation against the changes of other entries (DESIGN CHOICE,
log 37). -/
def forEntries (p : ImageEntry → Bool) (act : Nat → State → State) (s : State) : State :=
  (List.range s.image.length).foldl (fun s i => if p (s.entry i) then act i s else s) s

/-! ### Resolution (R103, R104) -/

/-- The layout an entry copies from its source's record when it resolves (R103). -/
def resolvedLayout (p : PeerRecord) (point : Nat) (sh : Shape) : EntryLayout :=
  ⟨((p.layout.bind fun l => (l.offsets.getD point none)).getD 0), sh.width, sh.format⟩

/-- A RESOLVING entry whose source is PRESENT with a KNOWN catalogue becomes WAITING or FAILED (R103). -/
def resolveEntry (i : Nat) (s : State) : State :=
  let e := s.entry i
  let p := s.peer e.source
  if e.state = .resolving ∧ p.presence = .present ∧ p.catalogue = .known then
    if p.count.getD 0 ≤ e.point then passEntry i (.failed .noPoint) (some 6) s
    else
      match p.shapes.getD e.point none with
      | none => passEntry i (.failed .noPoint) (some 6) s
      | some sh =>
        if sh.direction.sent then
          s.modEntry i fun e => { e with state := .waiting, layout := some (resolvedLayout p e.point sh), age := 0 }
        else passEntry i (.failed .notPublished) (some 7) s
  else s

/-- Whether an entry follows a source. -/
def ImageEntry.follows (n : Nat) (e : ImageEntry) : Bool := e.source == n && e.state != .free

/-- WAITING, FRESH or STALE, or FAILED with NO_POINT or NOT_PUBLISHED: what an absence or a clear undermines (R109, R111). -/
def ImageEntry.restsOnCatalogue (e : ImageEntry) : Bool :=
  e.state.served || e.state == .failed .noPoint || e.state == .failed .notPublished

/-- The catalogue of a source is reported KNOWN (R103). -/
def imageKnown (n : Nat) : State → State := forEntries (fun e => e.follows n && e.state == .resolving) resolveEntry

/-- The catalogue of a source is reported FAILED (R104). -/
def imageFailed (n : Nat) : State → State :=
  forEntries (fun e => e.follows n && e.state == .resolving) fun i => passEntry i (.failed .noCatalogue) (some 5)

/-- The catalogue of a source is reported returning from FAILED to FETCHING (R104). -/
def imageRetried (n : Nat) : State → State :=
  forEntries (fun e => e.follows n && e.state == .failed .noCatalogue) fun i s => resolveEntry i (passEntry i .resolving none s)

/-- A source is marked ABSENT (R109). -/
def imageAbsent (n : Nat) : State → State :=
  forEntries (fun e => e.follows n && e.restsOnCatalogue) fun i => passEntry i .lost (some 4)

/-- A source is marked PRESENT: its LOST entries are RESOLVING and every RESOLVING entry of it is judged (R103, R110). -/
def imagePresent (n : Nat) : State → State :=
  forEntries (fun e => e.follows n && (e.state == .lost || e.state == .resolving)) fun i s =>
    resolveEntry i (if (s.entry i).state = .lost then passEntry i .resolving none s else s)

/-- The catalogue of a source is reported cleared by a mismatch or a conflict (R111). -/
def imageCleared (n : Nat) : State → State :=
  forEntries (fun e => e.follows n && e.restsOnCatalogue) fun i => passEntry i .resolving (some 8)

/-! ### Values (R105 to R107) -/

/-- The verdict of the layout check (R94). -/
inductive Verdict where
  | agree | mismatch | noVerdict
deriving DecidableEq, Repr, Inhabited

/-- Bit `n` of a data section: bit n mod 8 of byte n div 8, bit 0 the least significant (R67, R107). -/
def sectionBit (data : List Byte) (n : Nat) : Bool := (data.getD (n / 8) 0).getLsbD (n % 8)

/-- The `width` bits at an offset as a number (R107). -/
def sectionNumber (data : List Byte) (offset : Nat) : Nat → Nat
  | 0 => 0
  | k + 1 => sectionNumber data offset k + (if sectionBit data (offset + k) then 2 ^ k else 0)

/-- The value of a layout's point in a data section (R107). -/
def readPoint (data : List Byte) (l : EntryLayout) : Word :=
  extend l.width l.format (BitVec.ofNat 32 (sectionNumber data l.offset l.width.bits))

/-- An entry takes a value (R105) and reports it to its watch and to the collector (R116). -/
def takeValue (i : Nat) (v : Word) (f : Format) (s : State) : State :=
  let before := (s.entry i).state
  let s := s.modEntry i fun e => { e with state := .fresh, value := v, age := 0, updates := satInc e.updates }
  let s := if before = .fresh then s else raise .entry 1 i before.code v s
  reportBoth i (evaluateWatch i f) (captureValue i v) s

/-- An entry at a value arrival (R105, R106). -/
def valueArrival (f : Frame) (i : Nat) (s : State) : State :=
  if f.cond.hostLost then
    if (s.entry i).state = .stale then s else passEntry i .stale (some 3) s
  else
    match (s.entry i).layout with
    | some l => takeValue i (readPoint f.data l) l.format s
    | none => s

/-- The image unit at the end of a GOOD arrival (R105): in OFF, in a claim frame, in a frame carrying LEAVING and without
the verdict AGREE there is no value arrival. -/
def imageArrival (f : Frame) (verdict : Verdict) (s : State) : State :=
  if s.ctl.state ≠ .off ∧ f.kind = .slotFrame ∧ verdict = .agree ∧ f.cond.leaving = false then
    forEntries (fun e => e.follows f.source && e.state.served) (valueArrival f) s
  else s

/-! ### Aging and entering OFF (R108, R112) -/

/-- One entry at a round boundary (R108). -/
def ageEntry (i : Nat) (s : State) : State :=
  let s := s.modEntry i fun e => { e with age := satIncTo 15 e.age }
  let e := s.entry i
  if e.state = .fresh ∧ e.age = e.staleLimit then passEntry i .stale (some 2) s else s

/-- The image unit's reaction to a round boundary (R108). -/
def takeAges (s : State) : State :=
  if s.due.ages then
    let s := s.modDue fun d => { d with ages := false }
    if s.ctl.state = .off then s
    else forEntries (fun e => e.state == .fresh || e.state == .stale) ageEntry s
  else s

/-- An entry on entering OFF: RESOLVING, without an event (R112). -/
def entryOff (s : State) (i : Nat) : State :=
  if (s.entry i).state = .free ∨ (s.entry i).state = .resolving then s else passEntry i .resolving none s

/-- The image unit and the collector on entering OFF: the collector's own reaction comes after as many entries as the free
choices give (R112, R162). -/
def imageOff (s : State) : State :=
  let is := List.range s.image.length
  let n := s.order.offAfter
  (is.drop n).foldl entryOff (collectorOff ((is.take n).foldl entryOff s))

end Sys2Proof.Machine
end

