-- ==== Sys2Proof/Machine/Requests.lean ====
section
/-! DEFINITION. The request list (chapter 8): tags, entry and removal, ends and chains, sending, waiting, matching, and the reactions to a target's
absence and to entering OFF. -/

namespace Sys2Proof.Machine

/-! ### The list -/

def State.modList (f : List RequestRecord → List RequestRecord) (s : State) : State :=
  s.modReq fun r => { r with list := f r.list }

def State.record? (s : State) (id : Nat) : Option RequestRecord := s.req.list.find? (·.id == id)

/-- Changes the record of a number. -/
def State.modRecord (id : Nat) (f : RequestRecord → RequestRecord) (s : State) : State :=
  s.modList (·.map fun r => if r.id = id then f r else r)

/-- The first tag after the counter that no record holds (R128). With at most 8 records one of the 16 is free. -/
def RequestUnit.nextTag (r : RequestUnit) : Nat :=
  (((List.range 16).map fun k => (r.tagCounter + 1 + k) % 16).find? fun t => !r.list.any (·.tag == t)).getD
    ((r.tagCounter + 1) % 16)

def RequestUnit.discoveryCount (r : RequestUnit) : Nat := r.list.countP (·.origin == .discovery)

/-- A discovery place is free (R91, R129). -/
def RequestUnit.discoveryPlace (r : RequestUnit) : Bool :=
  r.list.length < Config.maxRequests && r.discoveryCount < Config.maxDiscovery

/-- Enters a record at the end of the list with the next tag (R127, R128), WAITING with attempts 0. -/
def enterRecord (origin : Origin) (target : Nat) (kind : RequestKind) (index : Nat) (value : Option Word)
    (predecessor : Option Nat) (check : Bool) (s : State) : State :=
  let tag := s.req.nextTag
  (s.modReq fun r =>
    { r with
      tagCounter := tag
      list := r.list ++ [⟨s.serial, tag, origin, target, kind, index, value, predecessor, check, .waiting, 0, 0, none, .nothing⟩] }).takeSerial

/-- Removes a record and clears the links of its successors (R127, R134). -/
def removeRecord (id : Nat) (s : State) : State :=
  s.modList fun l =>
    (l.filter (·.id != id)).map fun r => if r.predecessor = some id then { r with predecessor := none } else r

def RequestState.live : RequestState → Bool
  | .waiting => true
  | .sent => true
  | .answered => false
  | .failed => false

/-! ### Ends and chains (R133, R142) -/

/-- The value of a REQUEST event: the value carried, the count for END, 0 otherwise (R142). -/
def Content.eventValue : Content → Word
  | .value v => v
  | .count n => BitVec.ofNat 32 n
  | .nothing => 0
  | .descriptor _ => 0

/-- The state a record ends in (R127). -/
def RequestOutcome.endState : RequestOutcome → RequestState
  | .answer _ => .answered
  | .broadcastSent => .answered
  | .noAnswer => .failed
  | .targetGone => .failed
  | .chainBroken => .failed
  | .aborted => .failed

/-- Gives a record its end; an application record raises REQUEST (R142). -/
def closeRecord (id : Nat) (outcome : RequestOutcome) (content : Content) (s : State) : State :=
  match s.record? id with
  | none => s
  | some r =>
    let s := s.modRecord id fun r => { r with state := outcome.endState, outcome := some outcome, content := content }
    if r.origin = .application then raise .request outcome.code r.tag r.target content.eventValue s else s

/-- Whether the end of a predecessor breaks a WAITING successor: a failure breaks any, an answer other than OK breaks one
with the check flag (R133). -/
def RequestRecord.brokenBy (r : RequestRecord) (failed unsuccessful : List Nat) : Bool :=
  r.state == .waiting &&
    match r.predecessor with
    | none => false
    | some p => failed.contains p || (r.check && unsuccessful.contains p)

/-- The break runs down the chain in list order: a record that ends CHAIN_BROKEN is itself a failure (R133). -/
def breakChain : List Nat → List Nat → List Nat → State → State
  | [], _, _, s => s
  | id :: ids, failed, unsuccessful, s =>
    match s.record? id with
    | none => breakChain ids failed unsuccessful s
    | some r =>
      if r.brokenBy failed unsuccessful then
        breakChain ids (id :: failed) unsuccessful (closeRecord id .chainBroken .nothing s)
      else breakChain ids failed unsuccessful s

def State.recordIds (s : State) : List Nat := s.req.list.map (·.id)

/-- A record ends and its successors are judged (R133, R142). -/
def endRecord (id : Nat) (outcome : RequestOutcome) (content : Content) (s : State) : State :=
  let s := closeRecord id outcome content s
  match outcome with
  | .answer .ok => s
  | .broadcastSent => s
  | .answer _ => breakChain s.recordIds [] [id] s
  | .noAnswer => breakChain s.recordIds [id] [] s
  | .targetGone => breakChain s.recordIds [id] [] s
  | .chainBroken => breakChain s.recordIds [id] [] s
  | .aborted => breakChain s.recordIds [id] [] s

/-! ### Sending (R132, R135, R136) -/

/-- Held: its predecessor is WAITING or SENT (R132). -/
def RequestUnit.held (u : RequestUnit) (r : RequestRecord) : Bool :=
  match r.predecessor with
  | none => false
  | some p => (u.list.find? (·.id == p)).any (·.state.live)

/-- The first eligible record in list order (R132, R135). -/
def RequestUnit.firstEligible (u : RequestUnit) : Option RequestRecord :=
  u.list.find? fun r => r.state == .waiting && !u.held r

def RequestRecord.section (r : RequestRecord) : RequestSection := ⟨r.tag, r.target, r.kind, r.index, r.value⟩

/-- The report that the frame carrying a record ended SENT (R136, R141). -/
def requestSent (id : Nat) (s : State) : State :=
  match s.record? id with
  | none => s
  | some r =>
    if r.state = .waiting then
      let s := s.modRecord id fun r => { r with attempts := r.attempts + 1 }
      if r.target = 0 then endRecord id .broadcastSent .nothing s
      else s.modRecord id fun r => { r with state := .sent, wait := Config.answerWait }
    else s

/-! ### Waiting and NO_ANSWER (R93, R137)

What the peer unit does when a discovery record ends NO_ANSWER is given by `noAnswer`, from the peer unit's file. -/

/-- One SENT record at a round boundary (R137). A record that ends NO_ANSWER breaks its successors at once, before a record that stands
between them in the list is judged: R142's list order for the records of one boundary and its order for a broken successor leave open which
of the two events comes first (DESIGN CHOICE, log 34). -/
def waitRecord (noAnswer : RequestRecord → State → State) (s : State) (id : Nat) : State :=
  match s.record? id with
  | none => s
  | some r =>
    if r.state = .sent then
      let s := s.modRecord id fun r => { r with wait := r.wait - 1 }
      if 1 < r.wait then s
      else if r.attempts < Config.maxAttempts then s.modRecord id fun r => { r with state := .waiting }
      else
        match r.origin with
        | .application => endRecord id .noAnswer .nothing s
        | .discovery => noAnswer r s
    else s

/-! ### Answers (R139, R140) -/

/-- Whether an answer in a frame of a source belongs to a record (R139); the requester is tested by the caller. -/
def RequestRecord.matches (source : Nat) (a : AnswerSection) (r : RequestRecord) : Bool :=
  r.target == source && r.tag == a.tag && r.kind == a.kind && r.index == a.index
    && (r.state == .sent || (r.state == .waiting && 1 ≤ r.attempts))

/-- The record an answer section belongs to (R139). -/
def State.matching? (s : State) (source : Nat) (a : AnswerSection) : Option RequestRecord :=
  if a.requester = s.ctl.config.station then s.req.list.find? (·.matches source a) else none

/-- The request unit at the end of a GOOD arrival that carries an answer section (R139, R140). A discovery record's own
answer ends it ANSWERED and it is consumed by removal (R92). -/
def answerArrival (source : Nat) (a : AnswerSection) (s : State) : State :=
  if a.requester = s.ctl.config.station then
    match s.matching? source a with
    | some r =>
      match r.origin with
      | .application => endRecord r.id (.answer a.outcome) a.content s
      | .discovery => removeRecord r.id s
    | none => s.modReq fun u => { u with lateAnswers := satInc u.lateAnswers }
  else s

/-! ### Absence and entering OFF (R145, R147) -/

/-- The application records of an absent target end TARGET_GONE in list order, each end judged for its successors as it is made (R145). A
record held by a predecessor with the same target is thus ended by that judgement, CHAIN_BROKEN (R133), before its own turn comes: R145
says of held records too that they end TARGET_GONE, and leaves open which comes first (DESIGN CHOICE, log 29). -/
def requestsAbsent (n : Nat) (s : State) : State :=
  s.recordIds.foldl (fun s id =>
    match s.record? id with
    | none => s
    | some r =>
      if r.origin = .application ∧ r.target = n ∧ r.state.live then endRecord id .targetGone .nothing s else s) s

/-- Removes the discovery records for a peer, in any state (R81). -/
def removeDiscovery (n : Nat) (s : State) : State :=
  s.modList (·.filter fun r => !(r.origin == .discovery && r.target == n))

/-- On entering OFF the discovery records are removed and every application record not ended ends ABORTED (R147). -/
def requestsOff (s : State) : State :=
  let s := s.modList (·.filter fun r => r.origin != .discovery)
  s.recordIds.foldl (fun s id =>
    match s.record? id with
    | none => s
    | some r => if r.state.live then closeRecord id .aborted .nothing s else s) s

end Sys2Proof.Machine
end

