-- ==== Sys2Proof/Machine/Peers.lean ====
section
/-! DEFINITION. The peer table (chapter 5): presence, sequence and condition, sticky faults, the catalogue cache and its learning,
discovery, and the layout check. -/

namespace Sys2Proof.Machine

/-! ### Sticky faults (R85) -/

/-- The three sticky faults by name. -/
inductive FaultName where
  | planMismatch | layoutMismatch | catalogueConflict
deriving DecidableEq, Repr, Inhabited

def FaultName.code : FaultName → Nat
  | .planMismatch => 1
  | .layoutMismatch => 2
  | .catalogueConflict => 3

def Faults.holds (f : Faults) : FaultName → Bool
  | .planMismatch => f.planMismatch
  | .layoutMismatch => f.layoutMismatch
  | .catalogueConflict => f.catalogueConflict

def Faults.set (f : Faults) : FaultName → Faults
  | .planMismatch => { f with planMismatch := true }
  | .layoutMismatch => { f with layoutMismatch := true }
  | .catalogueConflict => { f with catalogueConflict := true }

/-- A rule of the peer unit passes over the own record, and over numbers that are no station's (R78). -/
def overOwn (n : Nat) (f : State → State) (s : State) : State :=
  if n = 0 ∨ n = s.ctl.config.station then s else f s

/-- Sets a sticky fault; PEER FAULT only when it was clear (R85). -/
def setFault (n : Nat) (name : FaultName) : State → State :=
  overOwn n fun s =>
    if (s.peer n).faults.holds name then s
    else
      let s := s.modPeer n fun p => { p with faults := p.faults.set name }
      raise .peer 4 n name.code (BitVec.ofNat 32 (s.peer n).faults.code) s

/-! ### Presence (R80 to R82) -/

/-- The catalogue forgets every shape, the count and the layout (R81, R86). -/
def PeerRecord.forget (p : PeerRecord) : PeerRecord :=
  { p with shapes := List.replicate Config.maxPoints none, count := none, layout := none }

/-- A record passes to ABSENT (R80, R81): its catalogue is forgotten, its discovery record removed, its entries LOST (R109)
and the application records for it ended (R145). -/
def becomeAbsent (n : Nat) (s : State) : State :=
  let s := s.modPeer n fun p =>
    { p.forget with
      presence := .absent
      wentAbsent := true
      lastSequence := none
      catalogue := if p.catalogue = .failed then .failed else .unknown }
  requestsAbsent n (imageAbsent n (removeDiscovery n (raise .peer 2 n 0 0 s)))

/-- A record passes to PRESENT (R80, R82): a FAILED catalogue returns to FETCHING, and the image unit is told (R104, R110). -/
def becomePresent (n : Nat) (s : State) : State :=
  let wasFailed := (s.peer n).catalogue == .failed
  let s := s.modPeer n fun p =>
    let p := { p with presence := .present }
    if p.catalogue = .failed then { p.forget with catalogue := .fetching } else p
  let s := raise .peer 1 n 0 (BitVec.ofNat 32 (s.peer n).heardSlots) s
  imagePresent n (if wasFailed then imageRetried n s else s)

/-- A slot record is no longer HEARD by a station (R80). -/
def loseSlot (n : Nat) : State → State :=
  overOwn n fun s =>
    let s := s.modPeer n fun p => { p with heardSlots := p.heardSlots - 1 }
    if (s.peer n).heardSlots = 0 then becomeAbsent n s else s

/-- A slot record becomes HEARD by a station (R80). -/
def gainSlot (n : Nat) : State → State :=
  overOwn n fun s =>
    let s := s.modPeer n fun p => { p with heardSlots := p.heardSlots + 1 }
    if (s.peer n).heardSlots = 1 then becomePresent n s else s

/-- A change of a slot record's owner: the passage to ABSENT first (R80). -/
def changeOwner (before after : Option Nat) (s : State) : State :=
  if before = after then s
  else
    let s :=
      match before with
      | some n => loseSlot n s
      | none => s
    match after with
    | some n => gainSlot n s
    | none => s

/-! ### Sequence and condition (R83, R84) -/

def takeSequence (n : Nat) (sequence : Byte) (s : State) : State :=
  s.modPeer n fun p =>
    { p with
      framesMissed :=
        match p.lastSequence with
        | none => p.framesMissed
        | some last => if sequence = last + 1 then p.framesMissed else satInc p.framesMissed
      lastSequence := some sequence }

def takeCondition (n : Nat) (c : Cond) : State → State :=
  overOwn n fun s =>
    let old := (s.peer n).lastCond
    if old = c then s
    else raise .peer 3 n old.code (BitVec.ofNat 32 c.code) (s.modPeer n fun p => { p with lastCond := c })

/-! ### The catalogue cache (R86 to R89) -/

def Descriptor.shape (d : Descriptor) : Shape := ⟨d.width, d.format, d.direction⟩

/-- The catalogue cleared while it stays or becomes FETCHING, by a mismatch or a conflict (R86). -/
def PeerRecord.cleared (p : PeerRecord) : PeerRecord := { p.forget with catalogue := .fetching }

def PeerRecord.shapeAt (p : PeerRecord) (i : Nat) : Option Shape := p.shapes.getD i none

/-- The four contradictions (R88). -/
def PeerRecord.contradicts (p : PeerRecord) (a : AnswerSection) : Bool :=
  match a.content with
  | .descriptor d =>
    (match p.shapeAt a.index with
      | some sh => sh != d.shape
      | none => false)
    || (match p.count with
      | some c => c ≤ a.index
      | none => false)
  | .count c =>
    (match p.count with
      | some old => old != c
      | none => false)
    || (List.range Config.maxPoints).any fun i => c ≤ i && (p.shapeAt i).isSome
  | .nothing => false
  | .value _ => false

/-- Learns an answer into its place (R87). -/
def PeerRecord.store (p : PeerRecord) (a : AnswerSection) : PeerRecord :=
  match a.content with
  | .descriptor d => { p with shapes := p.shapes.set a.index (some d.shape) }
  | .count c => { p with count := some c }
  | .nothing => p
  | .value _ => p

/-- The count of a complete catalogue: the count known, or 32 when all 32 places hold a shape (R89). -/
def PeerRecord.completeCount (p : PeerRecord) : Option Nat :=
  let c := p.count.getD Config.maxPoints
  if (List.range c).all fun i => (p.shapeAt i).isSome then some c else none

/-- The shapes below a count, in index order. -/
def PeerRecord.shapesBelow (p : PeerRecord) (c : Nat) : List (Option Shape) := p.shapes.take c

/-- The bits a shape takes in the data section: its width when it is sent (R67, R89). -/
def sentBits : Option Shape → Nat
  | some sh => if sh.direction.sent then sh.width.bits else 0
  | none => 0

/-- The offsets of the sent shapes from a first offset on; a shape that is not sent has none (R89). -/
def offsetsFrom : Nat → List (Option Shape) → List (Option Nat)
  | _, [] => []
  | b, sh :: shs => (if sentBits sh = 0 then none else some b) :: offsetsFrom (b + sentBits sh) shs

def totalBits (shs : List (Option Shape)) : Nat := (shs.map sentBits).sum

/-- A complete catalogue becomes KNOWN with its layout (R89). -/
def becomeKnown (n c : Nat) (s : State) : State :=
  let shs := (s.peer n).shapesBelow c
  let s := s.modPeer n fun p =>
    { p with catalogue := .known, count := some c, layout := some ⟨totalBits shs, offsetsFrom 0 shs⟩ }
  imageKnown n (raise .peer 5 n c (BitVec.ofNat 32 (totalBits shs)) s)

/-- Learns an answer that does not contradict what is held, and completes the catalogue when it can (R87, R89). -/
def learnStore (n : Nat) (a : AnswerSection) (s : State) : State :=
  let s := s.modPeer n (·.store a)
  match (s.peer n).completeCount with
  | some c => becomeKnown n c s
  | none => s

/-- A contradiction: the catalogue is cleared, CATALOGUE_CONFLICT set, the image unit told, and the answer learned into the
cleared catalogue (R88). -/
def learnConflict (n : Nat) (a : AnswerSection) (s : State) : State :=
  learnStore n a (imageCleared n (setFault n .catalogueConflict (s.modPeer n (·.cleared))))

/-- Whether learning an answer makes a contradiction: one of R88's cases, or a completed catalogue of more than 384
published bits (R89). -/
def PeerRecord.conflictsWith (p : PeerRecord) (a : AnswerSection) : Bool :=
  p.contradicts a ||
    match (p.store a).completeCount with
    | some c => Config.maxPublishedBits < totalBits ((p.store a).shapesBelow c)
    | none => false

def learnFetching (n : Nat) (a : AnswerSection) (s : State) : State :=
  if (s.peer n).conflictsWith a then learnConflict n a s else learnStore n a s

/-! ### Discovery (R90 to R93) -/

/-- A discovery record asking an index is settled by what is held (R92). -/
def PeerRecord.settles (p : PeerRecord) (i : Nat) : Bool :=
  (p.shapeAt i).isSome ||
    match p.count with
    | some c => c ≤ i
    | none => false

/-- After learning, the discovery record for the peer is removed when settled, but not by its own answer (R92). -/
def settleDiscovery (n : Nat) (own : Option Nat) (s : State) : State :=
  match s.req.list.find? fun r => r.origin == .discovery && r.target == n with
  | none => s
  | some r => if (s.peer n).settles r.index ∧ own ≠ some r.id then removeRecord r.id s else s

/-- The peer unit takes a READ_ENTRY answer section (R87, R92); `own` is the record the answer belongs to, if any. -/
def learnAnswer (n : Nat) (a : AnswerSection) (own : Option Nat) : State → State :=
  overOwn n fun s =>
    match (s.peer n).catalogue with
    | .known => s
    | .fetching => settleDiscovery n own (learnFetching n a s)
    | .unknown => settleDiscovery n own (learnFetching n a (s.modPeer n fun p => { p with catalogue := .fetching }))
    | .failed =>
      settleDiscovery n own
        (learnFetching n a (imageRetried n (s.modPeer n fun p => { p with catalogue := .fetching })))

/-- Peer n needs discovery (R90). -/
def State.needsDiscovery (s : State) (n : Nat) : Bool :=
  (s.ctl.state == .claiming || s.ctl.state == .member)
    && (s.peer n).presence == .present
    && ((s.peer n).catalogue == .unknown || (s.peer n).catalogue == .fetching)
    && s.image.any (fun e => e.follows n && e.state == .resolving)
    && !s.req.list.any (fun r => r.origin == .discovery && r.target == n)

/-- The lowest index whose place holds no shape, below the count when it is known (R91). -/
def PeerRecord.lowestUnknown (p : PeerRecord) : Option Nat :=
  (List.range (min (p.count.getD Config.maxPoints) Config.maxPoints)).find? fun i => (p.shapeAt i).isNone

/-- Enters a discovery record for a peer (R91, R146). -/
def enterDiscovery (n : Nat) (s : State) : State :=
  match (s.peer n).lowestUnknown with
  | none => s
  | some i =>
    enterRecord .discovery n .readEntry i none none false
      (s.modPeer n fun p => { p with catalogue := if p.catalogue = .unknown then .fetching else p.catalogue })

/-- The lowest-numbered peer that needs discovery and has an index to ask. -/
def State.nextToDiscover (s : State) : Option Nat :=
  ((List.range Config.stations).map (· + 1)).find? fun n => s.needsDiscovery n && (s.peer n).lowestUnknown.isSome

/-- A free discovery place is given to the lowest-numbered peer that needs discovery (R91). -/
def giveDiscovery (s : State) : State :=
  if s.req.discoveryPlace then
    match s.nextToDiscover with
    | some n => enterDiscovery n s
    | none => s
  else s

/-- Discovery places are given out until none is free or no peer waits (R91); there are at most 4. -/
def giveAllDiscovery (s : State) : State := giveDiscovery (giveDiscovery (giveDiscovery (giveDiscovery s)))

/-- A discovery record ends FAILED with NO_ANSWER (R93). -/
def discoveryNoAnswer (r : RequestRecord) (s : State) : State :=
  let n := r.target
  let s := removeRecord r.id s
  if (s.peer n).catalogue = .fetching then
    let s := s.modPeer n fun p => { p with catalogue := .failed, fetchFailures := satInc p.fetchFailures }
    imageFailed n (raise .peer 6 n r.index ((s.peer n).fetchFailures.setWidth 32) s)
  else s

/-- The request unit's reaction to a round boundary (R137, R93), record by record in list order. Where discovery records of several peers
end NO_ANSWER at one boundary, their PEER CATALOGUE_FAILED events and what follows from them come in that order too, which the manual gives
for application records only (DESIGN CHOICE, log 33). -/
def takeWaits (s : State) : State :=
  if s.due.waits then
    let s := s.modDue fun d => { d with waits := false }
    if s.ctl.state = .off then s else s.recordIds.foldl (waitRecord discoveryNoAnswer) s
  else s

/-! ### The layout check and the peer unit's four takings (R79, R94) -/

/-- The verdict on a frame's data length (R94). -/
def PeerRecord.verdict (p : PeerRecord) (f : Frame) : Verdict :=
  match f.kind, p.catalogue, p.layout with
  | .slotFrame, .known, some l => if f.data.length = (l.bits + 7) / 8 then .agree else .mismatch
  | _, _, _ => .noVerdict

/-- The layout check of a frame from peer n (R94): FAULT first, LAYOUT_MISMATCH second (R98). -/
def checkLayout (n : Nat) (f : Frame) : State → State :=
  overOwn n fun s =>
    if (s.peer n).verdict f = .mismatch then
      let expected := (((s.peer n).layout.map (·.bits)).getD 0 + 7) / 8
      let s := setFault n .layoutMismatch (s.modPeer n (·.cleared))
      imageCleared n (raise .peer 7 n f.data.length (BitVec.ofNat 32 expected) s)
    else s

/-- The peer unit at the end of a GOOD arrival from another station (R79): sequence, condition, layout check, learning, in
that order. In OFF it takes nothing. -/
def peerArrival (f : Frame) (s : State) : State :=
  if s.ctl.state = .off then s
  else
    let n := f.source
    let own := f.answer.bind fun a => (s.matching? n a).map (·.id)
    let s := takeSequence n f.sequence s
    let s := if f.kind = .slotFrame then checkLayout n f (takeCondition n f.cond s) else s
    match f.answer with
    | some a => if a.kind = .readEntry then learnAnswer n a own s else s
    | none => s

/-- A PLAN_MISMATCH arrival (R12, R85). -/
def peerPlanMismatch (n : Nat) (s : State) : State :=
  if s.ctl.state = .off then s else setFault n .planMismatch s

/-- The peer table on entering OFF (R78). -/
def peersOff (s : State) : State := { s with peers := s.peers.map fun _ => PeerRecord.reset }

end Sys2Proof.Machine
end

