-- ==== Sys2Proof/Machine/SlotMap.lean ====
section
/-! DEFINITION. The slot map (chapter 2): records and their owners, activity, the frame's claim on a record, the end of a slot, silence, and the
choice of a candidate. -/

namespace Sys2Proof.Machine

/-- Gives a record another state and reports the change of owner to the peer unit (R40, R80). -/
def setSlotState (k : Nat) (f : SlotRecord → SlotRecord) (s : State) : State :=
  let before := (s.slotAt k).state.owner?
  let s := s.modSlotAt k f
  changeOwner before (s.slotAt k).state.owner? s

/-- A record becomes HEARD by a station: silence count 0, owner-heard set (R24, R31, R33). -/
def becomeHeard (k n : Nat) : State → State :=
  setSlotState k fun r => { r with state := .heard n 0, ownerHeard := true }

/-- A record becomes FREE: no owner, no count, owner-heard clear (R26, R27, R36). -/
def becomeFree (k : Nat) : State → State :=
  setSlotState k fun r => { r with state := .free, ownerHeard := false }

/-- Activity this round of a slot (R12, R23). -/
def markActivity (slot : Option Nat) (s : State) : State :=
  match slot with
  | some k => s.modSlotAt k fun r => { r with activityThis := true }
  | none => s

/-- What a GOOD arrival from another station does to the record of its slot (R24 to R26); `winner` tells that it is the
winner's arrival of a transmission this station made in that slot. A record freed by LEAVING keeps the activity this round its arrival has
marked, until the next end of its slot (R23); whether that end comes before the next boundary, as R26 expects, is the alignment's matter
(DESIGN CHOICE, log 36). -/
def mapArrival (f : Frame) (winner : Bool) (s : State) : State :=
  if s.ctl.state = .off then s
  else
    match (s.slotAt f.slot).state with
    | .free => if f.kind = .slotFrame ∧ f.cond.leaving then becomeFree f.slot s else becomeHeard f.slot f.source s
    | .heard _ _ => if f.kind = .slotFrame ∧ f.cond.leaving then becomeFree f.slot s else becomeHeard f.slot f.source s
    | .claiming _ => if winner then s else s.modSlot fun u => { u with outOfStep := satInc u.outOfStep }
    | .owned _ => if winner then s else s.modSlot fun u => { u with outOfStep := satInc u.outOfStep }

/-! ### The end of a slot (R23, R27) -/

/-- A record at the end of its slot: the activity flags shift (R23), and a HEARD record without its owner's frame counts
silence, short of the limit (R27). -/
def SlotRecord.atEnd (r : SlotRecord) : SlotRecord :=
  let r := { r with activityLast := r.activityThis, activityThis := false }
  match r.state with
  | .heard o silence =>
    if r.ownerHeard then { r with ownerHeard := false }
    else if silence + 1 < Config.silenceLimit then { r with state := .heard o (silence + 1) }
    else r
  | .free => r
  | .claiming _ => r
  | .owned _ => r

/-- A HEARD record whose silence count would reach 3 at the end of its slot (R27). -/
def SlotRecord.silenceReached (r : SlotRecord) : Bool :=
  match r.state with
  | .heard _ silence => !r.ownerHeard && Config.silenceLimit ≤ silence + 1
  | .free => false
  | .claiming _ => false
  | .owned _ => false

/-- The silence limit of a slot that has ended: its record becomes FREE (R27). -/
def takeSilence (s : State) : State :=
  match s.due.silence with
  | none => s
  | some k =>
    let s := s.modDue fun d => { d with silence := none }
    if (s.slotAt k).silenceReached then becomeFree k s else s

/-! ### Candidates (R28, R29) -/

/-- The preferred slot. -/
def Configuration.preferredSlot (c : Configuration) : Nat := (c.station - 1) % c.slots

/-- The slots in the order of the search: upward from the preferred slot, once round. -/
def Configuration.searchOrder (c : Configuration) : List Nat :=
  (List.range c.slots).map fun k => (c.preferredSlot + k) % c.slots

/-- The first FREE record without activity last round (R28). A record freed under R26, R31 or R33 is passed over by this flag alone
(DESIGN CHOICE, log 36). -/
def State.candidate? (s : State) : Option Nat :=
  s.ctl.config.searchOrder.find? fun k => (s.slotAt k).state == .free && !(s.slotAt k).activityLast

/-- The search at a round boundary (R28, R29). -/
def candidateSearch (s : State) : State :=
  if (s.ctl.state = .claiming ∨ s.ctl.state = .member) ∧ s.line.hold = false
      ∧ s.ownedCount + s.claimingCount < s.ctl.config.want then
    match s.candidate? with
    | some k =>
      (s.modSlotAt k fun r => { r with state := .claiming 0, ownerHeard := false }).modSlot fun u =>
        { u with starved := false }
    | none =>
      if s.slot.starved then s
      else
        raise .slot 4 s.ctl.config.preferredSlot (s.ownedCount + s.claimingCount) (BitVec.ofNat 32 s.ctl.config.want)
          (s.modSlot fun u => { u with starved := true })
  else s

/-! ### Holds, leaving and entering OFF (R36 to R38) -/

/-- The slots whose records are CLAIMING, lowest first. -/
def State.claimingSlots (s : State) : List Nat :=
  (List.range s.slot.map.length).filter fun k => (s.slotAt k).state.isClaiming

/-- A CLAIMING record becomes FREE, its count and its owner-heard flag clear (R22, R36, R37); any other stays. -/
def freeClaim (r : SlotRecord) : SlotRecord := if r.state.isClaiming then { r with state := .free, ownerHeard := false } else r

/-- Entering LEAVING frees every CLAIMING record, with no event (R36). -/
def freeClaims (s : State) : State := s.modSlot fun u => { u with map := u.map.map freeClaim }

/-- The start of a hold frees every CLAIMING record, each with SLOT CLAIM_FAILED, cause HOLD (R37). In OFF there is none. -/
def holdClaims (s : State) : State :=
  s.claimingSlots.foldl (fun s k => raise .slot 3 k 0 2 (s.modSlotAt k freeClaim)) s

/-- The slot unit on entering OFF: map, starved latch, timer and counter (R16, R22, R38). The records are not freed by a
change of owner (R80). -/
def slotOff (s : State) : State :=
  s.modSlot fun u =>
    { u with timer := 0, counter := 0, map := u.map.map fun _ => SlotRecord.reset, starved := false }

end Sys2Proof.Machine
end

