-- ==== Sys2Proof/Machine/Station.lean ====
section
/-! DEFINITION. Station control (chapter 3): the station states and their passages, entering OFF, the listening and leaving counts, and the
host-loss timer. -/

namespace Sys2Proof.Machine

/-- STATION events name this station as the configuration block holds it (R57). -/
def raiseStation (code detail value : Nat) (s : State) : State :=
  raise .station code s.ctl.config.station detail (BitVec.ofNat 32 value) s

/-- A passage of the station state, with its STATION STATE event (R45, R57). -/
def passStation (st : StationState) (cause : Nat) (s : State) : State :=
  raiseStation 1 cause st.code (s.modCtl fun c => { c with state := st })

/-- Station control on entering OFF (R52). -/
def stationOff (s : State) : State :=
  s.modCtl fun c =>
    { c with listening := 0, leaving := 0, hostLoss := 0, cond := { c.cond with leaving := false, hostLost := false } }

/-- The line unit on entering OFF: a frame not yet begun is discarded (R52), LOST transmissions give no report, and a frame being sent will
give none if it ends LOST (R21). -/
def lineOff (s : State) : State :=
  s.modLine fun l =>
    { l with
      tx := (l.tx.filter (·.phase.isSending)).map fun t => { t with offSince := true }
      lost := [] }

/-- The answer queue on entering OFF (R76). -/
def answersOff (s : State) : State := s.modPub fun p => { p with answers := [] }

/-- Reactions of the present moment are left without object by entering OFF. -/
def dueOff (s : State) : State := s.modDue fun _ => Due.none

/-- The image unit with the collector, and the request unit, in the order the free choices give (R112, R147, R162). -/
def imageAndRequestsOff (s : State) : State :=
  if s.order.offImageFirst then requestsOff (imageOff s) else imageOff (requestsOff s)

/-- Entering OFF, by any cause (R52): every block's chapter states its part. A boundary counted in this moment is counted by the period
counts before, so that no ROUND trigger comes in OFF (R149, log 2). The image unit reacts while the peer records still stand, which no
rule of its reaction reads. -/
def enterOff (cause : Nat) (s : State) : State :=
  dueOff <| slotOff <| peersOff <| answersOff <| lineOff <| imageAndRequestsOff <| stationOff <| passStation .off cause <|
    takePeriods s

/-- Entering LEAVING (R36, R51); with no OWNED record the leaving sequence ends at once (R50). -/
def enterLeaving (s : State) : State :=
  let s := passStation .leaving 5 s
  let s := freeClaims (s.modCtl fun c => { c with leaving := 0, cond := { c.cond with leaving := true } })
  if s.ownedCount = 0 then enterOff 6 s else s

/-- Station control follows the number of OWNED records (R40, R48, R51). -/
def followOwned (s : State) : State :=
  match s.ctl.state with
  | .claiming => if s.ownedCount = 0 then s else passStation .member 3 s
  | .member => if s.ownedCount = 0 then passStation .claiming 4 s else s
  | .leaving => if s.ownedCount = 0 then enterOff 6 s else s
  | .off => s
  | .listening => s
  | .observer => s

/-- A feed of the host-loss timer (R56). -/
def feedTimer (s : State) : State :=
  if s.ctl.state = .off then s
  else
    let lost := s.ctl.cond.hostLost
    let s := s.modCtl fun c => { c with hostLoss := 0, cond := { c.cond with hostLost := false } }
    if lost then raiseStation 3 0 0 s else s

/-! ### Reactions to a round boundary (R47, R51, R55) -/

/-- The listening count; at 2 the station enters CLAIMING, and that boundary is one at which R28 searches (R47). -/
def takeListen (s : State) : State :=
  if s.due.listen then
    let s := s.modDue fun d => { d with listen := false }
    if s.ctl.state = .listening then
      let s := s.modCtl fun c => { c with listening := c.listening + 1 }
      if Config.listenRounds ≤ s.ctl.listening then candidateSearch (passStation .claiming 2 s) else s
    else s
  else s

/-- The leaving count; at 2 the station enters OFF (R51). -/
def takeLeaving (s : State) : State :=
  if s.due.leaving then
    let s := s.modDue fun d => { d with leaving := false }
    if s.ctl.state = .leaving then
      let s := s.modCtl fun c => { c with leaving := c.leaving + 1 }
      if Config.leavingRounds ≤ s.ctl.leaving then enterOff 7 s else s
    else s
  else s

/-- The host-loss timer (R55). -/
def takeHost (s : State) : State :=
  if s.due.host then
    let s := s.modDue fun d => { d with host := false }
    if s.ctl.state = .off ∨ s.ctl.config.timeout = 0 ∨ s.ctl.cond.hostLost then s
    else
      let s := s.modCtl fun c => { c with hostLoss := c.hostLoss + 1 }
      if s.ctl.hostLoss = s.ctl.config.timeout then
        raiseStation 2 0 s.ctl.config.timeout (s.modCtl fun c => { c with cond := { c.cond with hostLost := true } })
      else s
  else s

end Sys2Proof.Machine
end

