-- ==== Sys2Proof/Machine/Publish.lean ====
section
/-! DEFINITION. The publication unit (chapter 4): point descriptors, the data section, and the answer side. -/

namespace Sys2Proof.Machine

/-! ### The catalogue (R58 to R61) -/

/-- The published bits: the widths of the PUBLISHED and BOTH points (R59). -/
def publishedBits (c : List Point) : Nat :=
  (c.map fun p => if p.descriptor.direction.sent then p.descriptor.width.bits else 0).sum

/-- The largest unsigned number of a width (R58). -/
def Width.maxUnsigned (w : Width) : Word := BitVec.ofNat 32 (2 ^ w.bits - 1)

/-- The descriptor DEFINE_POINT's words spell, when its fields are in range (R60): for a FLAGS point the limits stored are
0 and the largest number of the width, whatever was given (R58). -/
def descriptorOf (args : List Word) : Option Descriptor := do
  let width ← Width.ofNat? (byteOf (arg args 0) 2).toNat
  let format ← Format.ofNat? (byteOf (arg args 0) 1).toNat
  let direction ← Direction.ofNat? (byteOf (arg args 0) 0).toNat
  if width = .w1 ∧ format = .signed then none
  else
    let nameLength := (byteOf (arg args 3) 3).toNat
    let unitLength := (byteOf (arg args 3) 2).toNat
    if 8 < nameLength ∨ 4 < unitLength then none
    else
      let name := (charsOf [arg args 4, arg args 5]).take nameLength
      let unit := (charsOf [arg args 6]).take unitLength
      match format with
      | .flags => some ⟨width, format, direction, 0, width.maxUnsigned, name, unit⟩
      | .signed =>
        if fits width .signed (arg args 1) ∧ fits width .signed (arg args 2) ∧ ¬lessThan .signed (arg args 2) (arg args 1) then
          some ⟨width, format, direction, arg args 1, arg args 2, name, unit⟩
        else none
      | .unsigned =>
        if fits width .unsigned (arg args 1) ∧ fits width .unsigned (arg args 2)
            ∧ ¬lessThan .unsigned (arg args 2) (arg args 1) then
          some ⟨width, format, direction, arg args 1, arg args 2, name, unit⟩
        else none

/-- The catalogue with a point added at the end, or in place of the one at its index (R61). -/
def placePoint (c : List Point) (i : Nat) (p : Point) : List Point := if i < c.length then c.set i p else c ++ [p]

/-! ### The data section (R67) -/

/-- The sent bits in order, each point's from its least significant bit up (R67). -/
def sectionBits (c : List Point) : List Bool :=
  c.flatMap fun p =>
    if p.descriptor.direction.sent then (List.range p.descriptor.width.bits).map p.value.getLsbD else []

/-- Bits as a number, the first the least significant. -/
def bitsToNat : List Bool → Nat
  | [] => 0
  | b :: bs => bit b + 2 * bitsToNat bs

/-- Byte `k` of the data section: bit n of the section is bit n mod 8 of byte n div 8, and the padding is 0 (R67). -/
def sectionByte (bits : List Bool) (k : Nat) : Byte := BitVec.ofNat 8 (bitsToNat ((bits.drop (8 * k)).take 8))

/-- The data section of a slot frame: ceil(published bits / 8) bytes (R67). -/
def dataSection (c : List Point) : List Byte :=
  (List.range ((publishedBits c + 7) / 8)).map (sectionByte (sectionBits c))

/-! ### The answer side (R68 to R73) -/

def countDropped (s : State) : State := s.modPub fun p => { p with dropped := satInc p.dropped }
def countNotServed (s : State) : State := s.modPub fun p => { p with notServed := satInc p.notServed }
def countBroadcastIgnored (s : State) : State := s.modPub fun p => { p with broadcastIgnored := satInc p.broadcastIgnored }

/-- The judgement of a write against the catalogue (R71): its outcome and content, and the value to write when it is OK. -/
def judgeWrite (c : List Point) (i : Nat) (v : Word) : AnswerOutcome × Content × Option Word :=
  match getElem? c i with
  | none => (.noPoint, .nothing, none)
  | some p =>
    if p.descriptor.direction = .published then (.notAccepted, .nothing, none)
    else if withinLimits p.descriptor v then
      let written := if p.descriptor.format = .flags then lowBits p.descriptor.width v else v
      (.ok, .value written, some written)
    else (.outOfRange, .value p.value, none)

/-- A peer's write is taken: value, last writer and PEER_WRITE (R71 to R73). -/
def writePoint (i requester : Nat) (v : Word) (code : Nat) (s : State) : State :=
  raise .peerWrite code i requester v
    (s.modPub fun p => { p with catalogue := p.catalogue.modify i fun q => { q with value := v, writer := requester } })

/-- Applies a judged write, when it is OK. -/
def applyWrite (i requester code : Nat) (written : Option Word) (s : State) : State :=
  match written with
  | some v => writePoint i requester v code s
  | none => s

/-- Enters an answer at the tail of the queue (R74). -/
def enterAnswer (requester : Nat) (r : RequestSection) (outcome : AnswerOutcome) (content : Content) (s : State) : State :=
  (s.modPub fun p =>
    { p with answers := p.answers ++ [⟨s.serial, requester, r.tag, r.kind, r.index, outcome, content⟩] }).takeSerial

/-- A repeat of a request whose answer is still queued (R69). -/
def Answer.answers (a : Answer) (requester : Nat) (r : RequestSection) : Bool :=
  a.requester == requester && a.tag == r.tag && a.kind == r.kind && a.index == r.index

/-- The outcome and content of a READ answer (R70). -/
def judgeRead (c : List Point) (kind : RequestKind) (i : Nat) : AnswerOutcome × Content :=
  match kind, getElem? c i with
  | .readEntry, some p => (.ok, .descriptor p.descriptor)
  | .readEntry, none => (.catalogueEnd, .count c.length)
  | .readPoint, some p => (.ok, .value p.value)
  | .readPoint, none => (.noPoint, .nothing)
  | .writePoint, _ => (.noPoint, .nothing)

/-- Serves a request addressed to this station that has passed the tests of R69 (R70, R71). -/
def serveRequest (requester : Nat) (r : RequestSection) (s : State) : State :=
  match r.kind with
  | .writePoint =>
    let j := judgeWrite s.pub.catalogue r.index (r.value.getD 0)
    enterAnswer requester r j.1 j.2.1 (applyWrite r.index requester 1 j.2.2 s)
  | .readEntry =>
    let j := judgeRead s.pub.catalogue .readEntry r.index
    enterAnswer requester r j.1 j.2 s
  | .readPoint =>
    let j := judgeRead s.pub.catalogue .readPoint r.index
    enterAnswer requester r j.1 j.2 s

/-- The states in which requests are served (R69). -/
def StationState.serves : StationState → Bool
  | .claiming => true
  | .member => true
  | .leaving => true
  | .off => false
  | .listening => false
  | .observer => false

/-- The answer side at the end of a GOOD arrival that carries a request section (R68, R69, R72). -/
def requestArrival (requester : Nat) (r : RequestSection) (s : State) : State :=
  if r.target = 0 ∧ r.kind ≠ .writePoint then countBroadcastIgnored s
  else if r.target = 0 then
    if s.ctl.state.serves then
      applyWrite r.index requester 2 (judgeWrite s.pub.catalogue r.index (r.value.getD 0)).2.2 s
    else countNotServed s
  else if r.target = s.ctl.config.station then
    if s.ctl.state.serves then
      if s.pub.answers.any (·.answers requester r) then s
      else if Config.maxAnswers ≤ s.pub.answers.length then countDropped s
      else serveRequest requester r s
    else countNotServed s
  else s

/-- The report that the frame carrying an answer ended SENT (R75). -/
def answerSent (id : Nat) (s : State) : State :=
  s.modPub fun p => { p with answers := p.answers.filter (·.id != id) }

def Answer.section (a : Answer) : AnswerSection := ⟨a.tag, a.requester, a.kind, a.index, a.outcome, a.content⟩

end Sys2Proof.Machine
end

