-- ==== Sys2Proof/Machine/Frame.lean ====
section
/-! DEFINITION. The frame as bytes and as levels on the line: byte coding (R1), arbitration (R3), CRC (R7), plan mark (R8), the bytes of a frame
(R5, R6), the reading of a frame with the tests of R10, and the class of an arrival (R9). -/

namespace Sys2Proof.Machine

/-! ### Levels on the line (R1, R3) -/

/-- A data bit: dominant for 0 and recessive for 1. -/
def levelOf (b : Bool) : Level := if b then .recessive else .dominant

/-- A byte as ten bit times: a dominant start bit, the data bits from the most significant down, a recessive stop bit (R1). -/
def byteLevels (b : Byte) : List Level :=
  .dominant :: [7, 6, 5, 4, 3, 2, 1, 0].map (fun i => levelOf (b.getLsbD i)) ++ [.recessive]

/-- A frame on the line: its bytes with no gap between them (R1). -/
def frameLevels (bytes : List Byte) : List Level := bytes.flatMap byteLevels

/-- The bit times of a frame of so many bytes (R1). -/
def frameBits (n : Nat) : Nat := 10 * n

/-- Whether the first sender loses to the second: at the first bit in which they differ it sends recessive (R3). -/
def losesTo : List Level → List Level → Bool
  | .recessive :: _, .dominant :: _ => true
  | .dominant :: _, .recessive :: _ => false
  | _ :: xs, _ :: ys => losesTo xs ys
  | [], _ => false
  | _ :: _, [] => false

/-! ### CRC and plan mark (R7, R8) -/

/-- One bit of the CRC register, generator polynomial 1021h. -/
def crcBit (c : Half) : Half := if c.msb then (c <<< 1) ^^^ 0x1021 else c <<< 1

/-- One byte, fed in most significant bit first. -/
def crcByte (c : Half) (b : Byte) : Half :=
  crcBit (crcBit (crcBit (crcBit (crcBit (crcBit (crcBit (crcBit (c ^^^ (b ++ 0#8)))))))))

/-- The CRC of bytes, from FFFFh, not inverted (R7). -/
def crc (bytes : List Byte) : Half := bytes.foldl crcByte 0xFFFF

/-- Bytes followed by their CRC, high byte first (R7). -/
def withCrc (bytes : List Byte) : List Byte :=
  bytes ++ [(crc bytes).extractLsb' 8 8, (crc bytes).extractLsb' 0 8]

/-- The plan mark (R8). -/
def Configuration.planMark (c : Configuration) : Nat := (c.slots - 1) + 64 * c.rate

/-! ### A frame's bytes (R5, R6) -/

/-- A 32-bit value, most significant byte first. -/
def wordBytes (w : Word) : List Byte := [byteOf w 3, byteOf w 2, byteOf w 1, byteOf w 0]

def byteN (n : Nat) : Byte := BitVec.ofNat 8 n

def descriptorBytes (d : Descriptor) : List Byte :=
  [byteN d.width.bits, byteN d.format.code, byteN d.direction.code] ++ wordBytes d.low ++ wordBytes d.high
    ++ (byteN d.name.length :: d.name) ++ (byteN d.unit.length :: d.unit)

def contentBytes : Content → List Byte
  | .nothing => []
  | .value v => wordBytes v
  | .count n => [byteN n]
  | .descriptor d => descriptorBytes d

def requestBytes (r : RequestSection) : List Byte :=
  [byteN r.tag, byteN r.target, byteN r.kind.code, byteN r.index] ++
    match r.value with
    | some v => wordBytes v
    | none => []

def answerBytes (a : AnswerSection) : List Byte :=
  [byteN a.tag, byteN a.requester, byteN a.kind.code, byteN a.index, byteN a.outcome.code] ++ contentBytes a.content

def FrameKind.byte : FrameKind → Byte
  | .slotFrame => 0x30
  | .claimFrame => 0x38

/-- A frame as its sender puts it on the line (frame layout table), CRC included. -/
def frameBytes (f : Frame) : List Byte :=
  withCrc
    ([f.kind.byte, byteN f.source, byteN f.slot, byteN f.plan, f.sequence, byteN f.cond.code,
        byteN (bit f.request.isSome + 2 * bit f.answer.isSome), byteN f.data.length]
      ++ (match f.request with | some r => requestBytes r | none => [])
      ++ (match f.answer with | some a => answerBytes a | none => [])
      ++ f.data)

/-! ### Reading a frame (R10): `none` is FORMAT -/

/-- Four bytes, most significant first, and the rest. -/
def readWord : List Byte → Option (Word × List Byte)
  | a :: b :: c :: d :: rest => some (a ++ b ++ c ++ d, rest)
  | _ => none

/-- A length byte of at most `limit`, that many characters, and the rest. -/
def readChars (limit : Nat) : List Byte → Option (List Byte × List Byte)
  | n :: rest => if n.toNat ≤ limit ∧ n.toNat ≤ rest.length then some (rest.take n.toNat, rest.drop n.toNat) else none
  | [] => none

def readDescriptor : List Byte → Option (Descriptor × List Byte)
  | w :: f :: d :: rest => do
    let width ← Width.ofNat? w.toNat
    let format ← Format.ofNat? f.toNat
    let direction ← Direction.ofNat? d.toNat
    if width = .w1 ∧ format = .signed then none
    else
      let (low, rest) ← readWord rest
      let (high, rest) ← readWord rest
      let (name, rest) ← readChars 8 rest
      let (unit, rest) ← readChars 4 rest
      some (⟨width, format, direction, low, high, name, unit⟩, rest)
  | _ => none

/-- The request section and the rest (R5, R10). -/
def readRequest : List Byte → Option (RequestSection × List Byte)
  | t :: g :: k :: i :: rest => do
    let kind ← RequestKind.ofNat? k.toNat
    if t.toNat ≤ 15 ∧ g.toNat ≤ 32 ∧ i.toNat ≤ 31 then
      match kind with
      | .writePoint => do
        let (v, rest) ← readWord rest
        some (⟨t.toNat, g.toNat, kind, i.toNat, some v⟩, rest)
      | .readEntry => some (⟨t.toNat, g.toNat, kind, i.toNat, none⟩, rest)
      | .readPoint => some (⟨t.toNat, g.toNat, kind, i.toNat, none⟩, rest)
    else none
  | _ => none

/-- The content that a kind and an outcome are paired with in R6's table, and the rest. -/
def readContent (kind : RequestKind) (outcome : AnswerOutcome) (bytes : List Byte) : Option (Content × List Byte) :=
  match kind, outcome with
  | .readEntry, .ok => (readDescriptor bytes).map fun (d, rest) => (.descriptor d, rest)
  | .readEntry, .catalogueEnd =>
    match bytes with
    | n :: rest => if n.toNat ≤ 32 then some (.count n.toNat, rest) else none
    | [] => none
  | .readPoint, .ok => (readWord bytes).map fun (v, rest) => (.value v, rest)
  | .readPoint, .noPoint => some (.nothing, bytes)
  | .writePoint, .ok => (readWord bytes).map fun (v, rest) => (.value v, rest)
  | .writePoint, .noPoint => some (.nothing, bytes)
  | .writePoint, .notAccepted => some (.nothing, bytes)
  | .writePoint, .outOfRange => (readWord bytes).map fun (v, rest) => (.value v, rest)
  | _, _ => none

/-- The answer section and the rest (R6, R10). -/
def readAnswer : List Byte → Option (AnswerSection × List Byte)
  | t :: g :: k :: i :: o :: rest => do
    let kind ← RequestKind.ofNat? k.toNat
    let outcome ← AnswerOutcome.ofNat? o.toNat
    if t.toNat ≤ 15 ∧ 1 ≤ g.toNat ∧ g.toNat ≤ 32 ∧ i.toNat ≤ 31 then
      let (content, rest) ← readContent kind outcome rest
      some (⟨t.toNat, g.toNat, kind, i.toNat, outcome, content⟩, rest)
    else none
  | _ => none

/-- A section that is there when its flag is set. -/
def readIf {α : Type} (present : Bool) (read : List Byte → Option (α × List Byte)) (bytes : List Byte) :
    Option (Option α × List Byte) :=
  if present then (read bytes).map fun (x, rest) => (some x, rest) else some (none, bytes)

def FrameKind.ofByte? (b : Byte) : Option FrameKind :=
  if b = 0x30 then some .slotFrame else if b = 0x38 then some .claimFrame else none

/-- The frame whose bytes, CRC left out, these are; `none` when a condition of R10 holds. -/
def readFrame : List Byte → Option Frame
  | k :: source :: slot :: plan :: sequence :: cond :: flags :: dataLength :: rest => do
    let kind ← FrameKind.ofByte? k
    if 1 ≤ source.toNat ∧ source.toNat ≤ Config.stations ∧ cond.toNat < 8 ∧ flags.toNat < 4
        ∧ dataLength.toNat ≤ Config.maxDataBytes
        ∧ (kind = .claimFrame → flags = 0 ∧ dataLength = 0) then
      let (request, rest) ← readIf (flags.getLsbD 0) readRequest rest
      let (answer, rest) ← readIf (flags.getLsbD 1) readAnswer rest
      if rest.length = dataLength.toNat then
        some ⟨kind, source.toNat, slot.toNat, plan.toNat, sequence, Cond.ofByte cond, request, answer, rest⟩
      else none
    else none
  | _ => none

/-! ### The class of an arrival (R9) -/

/-- The class of an arrival, and its frame when its format is good. The tests are made in the order of R9's table; the
receiver keeps 96 bytes and marks a longer arrival as overlong (R2). -/
def classify (c : Configuration) (bytes : List Byte) (stopBitMissing : Bool) : ArrivalClass × Option Frame :=
  let body := bytes.take (bytes.length - 2)
  if stopBitMissing ∨ bytes.length < Config.minFrameBytes ∨ Config.maxFrameBytes < bytes.length then (.format, none)
  else if withCrc body ≠ bytes then (.badCrc, none)
  else
    match readFrame body with
    | none => (.format, none)
    | some f =>
      if f.plan ≠ c.planMark then (.planMismatch, some f)
      else if c.slots ≤ f.slot then (.format, none)
      else (.good, some f)

end Sys2Proof.Machine
end

