-- ==== Sys2Proof/Machine/Receiver.lean ====
section
/-! DEFINITION. The line unit bit time by bit time: the level on TXD (R1), the measures of the runs on RXD (R14, R15), and the receiver's reading
of levels into bytes (R2). -/

namespace Sys2Proof.Machine

/-! ### TXD (R1) -/

/-- The level of the bit time a frame being sent has come to; recessive before its first start bit and after its last stop bit. -/
def Transmission.level (t : Transmission) : Level :=
  match t.phase with
  | .assembled => .recessive
  | .sending k => (frameLevels t.bytes).getD k .recessive

/-- The level on TXD in the bit time that begins now: the frame's while TXE is on, recessive while it is off (R1). -/
def State.txd (s : State) : Level := if s.txeOn then ((s.line.tx.map Transmission.level).getD .recessive) else .recessive

/-- The last stop bit of a frame being sent has gone out (R1, R21). -/
def Transmission.allSent (t : Transmission) : Bool :=
  match t.phase with
  | .assembled => false
  | .sending k => frameBits t.bytes.length ≤ k

/-! ### The measures (R14, R15) -/

/-- One bit time more of RXD: the run goes on, or another level starts the measure again. -/
def LineUnit.measure (level : Level) (l : LineUnit) : LineUnit :=
  if level = l.rxd then { l with run := l.run + 1 } else { l with rxd := level, run := 1 }

/-- The bit times of the unbroken dominant run on RXD. -/
def LineUnit.dominantRun (l : LineUnit) : Nat := if l.rxd = .dominant then l.run else 0

/-- The bit times of the unbroken recessive run on RXD. -/
def LineUnit.recessiveRun (l : LineUnit) : Nat := if l.rxd = .recessive then l.run else 0

/-! ### Inside an arrival (R2) -/

/-- The arrival a start bit begins: its start bit has been read. -/
def Reception.start (slot : Option Nat) : Reception := ⟨slot, false, [], false, false, .data 0 0⟩

/-- A byte whose stop bit was read: kept among the first 96, or the arrival is overlong (R2). -/
def Reception.keep (b : Byte) (r : Reception) : Reception :=
  if r.bytes.length < Config.maxFrameBytes then { r with bytes := r.bytes ++ [b] } else { r with overlong := true }

/-- A data bit put after those taken, most significant first (R1). -/
def takeBit (level : Level) (bits : Byte) : Byte := bits <<< 1 ||| (if level = .recessive then 1#8 else 0#8)

/-- One bit time inside an arrival (R2): a data bit, a stop bit, a bit time of the gap after a stop bit, in which a dominant level is the
next start bit, or a bit time after a lost stop bit, in which every dominant level starts the 12 recessive bit times again. -/
def Reception.hear (level : Level) (r : Reception) : Reception :=
  match r.phase, level with
  | .data taken bits, l =>
    { r with phase := if taken = 7 then .stop (takeBit l bits) else .data (taken + 1) (takeBit l bits) }
  | .stop bits, .recessive => { r.keep bits with phase := .gap 0 }
  | .stop _, .dominant => { r with missing := true, phase := .broken 0 }
  | .gap _, .dominant => { r with phase := .data 0 0 }
  | .gap run, .recessive => { r with phase := .gap (run + 1) }
  | .broken _, .dominant => { r with phase := .broken 0 }
  | .broken run, .recessive => { r with phase := .broken (run + 1) }

/-- The end of frame: 12 recessive bit times after a stop bit, or in a row after a lost one (R2). -/
def Reception.ended (r : Reception) : Bool :=
  match r.phase with
  | .data _ _ => false
  | .stop _ => false
  | .gap run => Config.endOfFrameBits ≤ run
  | .broken run => Config.endOfFrameBits ≤ run

/-- The class of an arrival and its frame (R9); an overlong one is FORMAT as one without a stop bit is. -/
def Reception.classified (c : Configuration) (r : Reception) : ArrivalClass × Option Frame :=
  classify c r.bytes (r.missing || r.overlong)

/-- The arrival in progress is this station's own (R11). -/
def Receiver.markOwn : Receiver → Receiver
  | .inside r => .inside { r with own := true }
  | .waiting => .waiting

/-- The arrival in progress is a winner's, whoever sent it: never this station's own (R4, R11). -/
def Receiver.notOwn : Receiver → Receiver
  | .inside r => .inside { r with own := false }
  | .waiting => .waiting

/-- An arrival in progress has come to its end of frame. -/
def Receiver.ended : Receiver → Bool
  | .inside r => r.ended
  | .waiting => false

/-- One bit time of RXD at the receiver, with the recessive run measured before it (R2): a waiting receiver takes a dominant level as a start
bit after 12 recessive bit times and outside a hold. -/
def Receiver.hear (level : Level) (before : Nat) (hold : Bool) (slot : Option Nat) : Receiver → Receiver
  | .waiting =>
    if level = .dominant ∧ Config.endOfFrameBits ≤ before ∧ hold = false then .inside (Reception.start slot) else .waiting
  | .inside r => .inside (r.hear level)

end Sys2Proof.Machine
end

