-- ==== Sys2Proof/Machine/Line.lean ====
section
/-! DEFINITION. The line unit and slot time (chapter 1): assembly, the send point, the ends of transmissions, round boundaries and what is
due at them, alignment, the end of an arrival, medium holds, and the passing of one bit time. -/

namespace Sys2Proof.Machine

/-! ### Assembly (R19, R20) -/

/-- The fields of a frame every kind takes from the blocks (R20). -/
def frameHeader (kind : FrameKind) (k : Nat) (s : State) : Frame :=
  ⟨kind, s.ctl.config.station, k, s.ctl.config.planMark, s.line.sequence, s.ctl.cond, none, none, []⟩

/-- A slot frame with the oldest answer, the first eligible request and the data section (R20, R67, R75, R135). -/
def slotTransmission (k : Nat) (s : State) : Transmission :=
  let a := s.pub.answers.head?
  let r := s.req.firstEligible
  let f :=
    { frameHeader .slotFrame k s with
      request := r.map (·.section)
      answer := a.map (·.section)
      data := dataSection s.pub.catalogue }
  ⟨.slotFrame, k, frameBytes f, a.map (·.id), r.map (·.id), .assembled, false, false⟩

/-- A claim frame (R20). -/
def claimTransmission (k : Nat) (s : State) : Transmission :=
  ⟨.claimFrame, k, frameBytes (frameHeader .claimFrame k s), none, none, .assembled, false, false⟩

/-- What the line unit assembles for a slot (R19). -/
def assembled (k : Nat) (s : State) : Option Transmission :=
  if s.line.hold then none
  else
    match (s.slotAt k).state with
    | .owned _ => if s.ctl.state = .member ∨ s.ctl.state = .leaving then some (slotTransmission k s) else none
    | .claiming _ => if s.ctl.state = .claiming ∨ s.ctl.state = .member then some (claimTransmission k s) else none
    | .free => none
    | .heard _ _ => none

/-- The start of the slot the counter shows (R19). -/
def takeStart (s : State) : State :=
  if s.due.start then
    let s := s.modDue fun d => { d with start := false }
    if s.ctl.state = .off then s
    else
      match assembled s.slot.counter s with
      | some t => s.modLine fun l => { l with tx := some t }
      | none => s
  else s

/-! ### Ends of transmissions (R21, R30 to R36, R75, R136) -/

/-- How a transmission ended, with what a LOST report carries of the winner's arrival (R21). -/
inductive TxEnd where
  | sent
  | lost (cls : ArrivalClass) (frame : Option Frame)
  | abandoned
deriving DecidableEq, Repr, Inhabited

/-- The winner, when it is known (R31). -/
def knownWinner (station slot : Nat) (cls : ArrivalClass) (frame : Option Frame) : Option Nat :=
  match cls, frame with
  | .good, some f => if f.slot = slot ∧ f.source ≠ station then some f.source else none
  | _, _ => none

/-- The record of a lost slot: HEARD by a known winner, or FREE and marked with activity (R31, R33). The flag marked is shifted and read as
any other (R23, R28), so that an adoption which passes over the slot, wraps, or brings its end back (R39) may leave the record without activity
last round at the next boundary, and so may a report given after the last slot's own end; R31 says of either flag that the record is not chosen
there (DESIGN CHOICE, log 36). -/
def giveUpSlot (t : Transmission) (winner : Option Nat) (s : State) : State :=
  match winner with
  | some n => becomeHeard t.slot n s
  | none =>
    becomeFree t.slot s |>.modSlotAt t.slot fun r =>
      if t.slotEnded then { r with activityLast := true } else { r with activityThis := true }

/-- A claim frame's report to the slot unit (R30, R31, R32, R35). -/
def reportClaim (t : Transmission) (e : TxEnd) (clean : Nat) (s : State) : State :=
  match e with
  | .sent =>
    if clean + 1 < Config.cleanClaims then s.modSlotAt t.slot fun r => { r with state := .claiming (clean + 1) }
    else
      let s := s.modSlotAt t.slot fun r => { r with state := .owned 0 }
      followOwned (raise .slot 1 t.slot 0 (BitVec.ofNat 32 s.ownedCount) s)
  | .lost cls frame =>
    let winner := knownWinner s.ctl.config.station t.slot cls frame
    raise .slot 3 t.slot (winner.getD 0) 1 (giveUpSlot t winner s)
  | .abandoned => s

/-- A slot frame's report to the slot unit in MEMBER (R33, R34). -/
def reportOwned (t : Transmission) (e : TxEnd) (clash : Nat) (s : State) : State :=
  match e with
  | .sent => s.modSlotAt t.slot fun r => { r with state := .owned 0 }
  | .lost cls frame =>
    if clash = 0 then s.modSlotAt t.slot fun r => { r with state := .owned 1 }
    else
      let winner := knownWinner s.ctl.config.station t.slot cls frame
      let s := giveUpSlot t winner s
      followOwned (raise .slot 2 t.slot (winner.getD 0) (BitVec.ofNat 32 s.ownedCount) s)
  | .abandoned => s

/-- The slot unit takes a report while the record is in the state the frame was assembled for (R35); in LEAVING any end of
a slot frame frees the record (R36). -/
def reportToSlots (t : Transmission) (e : TxEnd) (s : State) : State :=
  match t.kind, (s.slotAt t.slot).state with
  | .claimFrame, .claiming clean => reportClaim t e clean s
  | .slotFrame, .owned clash =>
    match s.ctl.state with
    | .leaving => followOwned (becomeFree t.slot s)
    | .member => reportOwned t e clash s
    | .off => s
    | .listening => s
    | .claiming => s
    | .observer => s
  | _, _ => s

/-- The request unit and the answer side take a report: only SENT changes them (R75, R136). -/
def reportToLists (t : Transmission) (e : TxEnd) (s : State) : State :=
  match e with
  | .sent =>
    let s :=
      match t.answer with
      | some id => answerSent id s
      | none => s
    match t.request with
    | some id => requestSent id s
    | none => s
  | .lost _ _ => s
  | .abandoned => s

/-- The end of a transmission is reported to the three blocks (R21), in the order the free choices give. -/
def reportEnd (t : Transmission) (e : TxEnd) (s : State) : State :=
  if s.order.slotReportFirst then reportToLists t e (reportToSlots t e s) else reportToSlots t e (reportToLists t e s)

/-- A transmission ends LOST: it is counted, and waits for its winner's arrival to end (R21). The arrival in progress is the winner's, whoever
sent it: one marked as this station's own, whose frame was sent before, is counted and handed on as any other (R4, R11). Where none is in
progress, the first start bit having been sent before 12 recessive bit times had passed (R2) or read back recessive (R3), no rule gives the
report its moment: it waits for the end of the next arrival that is not this station's own, past any SENT report of the same slot that comes
sooner, so that R34's clean send is then reported before the loss it followed (DESIGN CHOICE, log 10). Where the station has entered OFF since
the first start bit, there is no report, also after a JOIN (R21). -/
def loseTransmission (t : Transmission) (s : State) : State :=
  s.modLine fun l =>
    { l with
      tx := none
      receiver := l.receiver.notOwn
      arbitrationLosses := satInc l.arbitrationLosses
      lost := if t.offSince then l.lost else l.lost ++ [t] }

/-- A transmission ends ABANDONED and is reported at once (R21). -/
def abandonTransmission (t : Transmission) (s : State) : State :=
  reportEnd t .abandoned (s.modLine fun l => { l with tx := none })

/-- The send point of a slot for an assembled frame (R4): it is deferred when the receiver is inside an arrival, ABANDONED
in a hold, and otherwise begun: its start bit goes out in the bit time that follows. -/
def beginTransmission (t : Transmission) (s : State) : State :=
  if s.line.hold then abandonTransmission t s
  else
    match s.line.receiver with
    | .inside _ => loseTransmission t s
    | .waiting => s.modLine fun l => { l with tx := some { t with phase := .sending 0 } }

/-- The send point, when a frame is assembled and not yet begun. -/
def takeSendPoint (s : State) : State :=
  match s.line.tx with
  | some t => if t.phase.isSending then s else beginTransmission t s
  | none => s

/-- The last stop bit of a frame being sent has gone out (R21): its arrival is this station's own (R11). -/
def takeSent (s : State) : State :=
  match s.line.tx with
  | some t =>
    if t.allSent then
      reportEnd t .sent
        (s.modLine fun l => { l with tx := none, sequence := l.sequence + 1, receiver := l.receiver.markOwn })
    else s
  | none => s

/-! ### Round boundaries and what is due (R16, R28; log 2) -/

/-- The blocks' reactions to a boundary that was counted, those not taken yet, in the model's order. -/
def takeReactions (s : State) : State :=
  takePeriods (takeDeadline (takeWaits (takeAges (takeHost (takeLeaving (takeListen s))))))

/-- A round boundary: the round counter adds 1, the slot unit searches for a candidate, and the other blocks' reactions
become due (R16, R28). Reactions an earlier boundary left are taken before; they may take the station to OFF, where no boundary is
counted. -/
def countBoundary (s : State) : State :=
  let s := takeReactions s
  if s.ctl.state = .off then s
  else
    let s := candidateSearch (s.modSlot fun u => { u with round := u.round + 1 })
    markDeadlines (s.modDue fun d =>
      { d with listen := true, leaving := true, host := true, ages := true, waits := true, periods := true })

/-- The passage to slot 0, when it is due (R16). -/
def takeBoundary (s : State) : State :=
  if s.due.boundary then countBoundary (s.modDue fun d => { d with boundary := false }) else s

/-- What the end of a slot brought and has not been taken: the silence limit, then the passage to slot 0 (R28: the search
judges the records as the end of the slot leaves them). A peer that the end of slot SLOTS-1 makes ABSENT by silence is so before the boundary
of the same moment is counted and before any block reacts to it: R28 orders the search only, and no rule orders the absence against the aging
of the peer's entries (R108, R109), the end NO_ANSWER of its discovery record (R93) or of an application record for it (R137, R145), or the
units' and station control's reactions (DESIGN CHOICE, log 31). -/
def takeSlotEnd (s : State) : State := takeBoundary (takeSilence s)

/-- The reactions of slot time that the present moment left due, in the model's order (log 2). -/
def takeAllDue (s : State) : State := takeStart (takeReactions (takeSlotEnd s))

/-- Everything the present moment left due: the reactions of slot time, then the triggers of B that waited (log 2, log 20). A collection that
B so begins begins after a round boundary counted in the same moment: its start stamp is the new round, and it looks at its entries as they
stand then, where one of A's, begun before that boundary, has the old round (R153; DESIGN CHOICE, log 38). -/
def takeMoment (s : State) : State := takeCall (takeAllDue s)

/-- Something of the present moment has not been taken, or the units still remember its triggers. -/
def State.hasDue (s : State) : Bool :=
  s.due != Due.none || s.called != 0 || s.began || s.unitA.deadlineDue || s.unitB.deadlineDue

/-- A discovery place is free and a peer waits for it (R91). -/
def State.discoveryDue (s : State) : Bool := s.req.discoveryPlace && s.nextToDiscover.isSome

/-- The present moment is over for a command, a read and an edge of TRIG (log 2): what is due is taken before them. A free discovery place
that a peer waits for is not given out here: R91 leaves open whether the peer or a command takes it, and the queue says which, by a
DISCOVERY_ENTRY before the command or none. -/
def settle (s : State) : State := if s.host.resetting = .idle ∧ s.hasDue then finish (takeMoment s) else s

/-- The present moment is over for the next bit time (log 2): what is due is taken, and the free discovery places are given out. -/
def passMoment (s : State) : State :=
  if s.host.resetting = .idle ∧ (s.hasDue || s.discoveryDue) then finish (giveAllDiscovery (takeMoment s)) else s

/-- The slot timer passes 1023 (R16): the slot's record is judged (R23, R27), the counter passes on, and the start of the
new slot, and the passage to slot 0, are due. -/
def passSlot (s : State) : State :=
  if s.ctl.state = .off then s
  else
    let k := s.slot.counter
    let next := (k + 1) % s.ctl.config.slots
    let limit := (s.slotAt k).silenceReached
    let s := s.modSlotAt k SlotRecord.atEnd
    let s := s.modLine fun l =>
      { l with lost := l.lost.map fun t => if t.slot = k then { t with slotEnded := true } else t }
    (s.modSlot fun u => { u with timer := 0, counter := next }).modDue fun d =>
      { d with silence := if limit then some k else none, boundary := next == 0, start := true }

/-! ### Alignment (R17, R18) -/

/-- A forward wrap: the frame's slot lies below the counter by more than half of SLOTS (R18). -/
def forwardWrap (old new slots : Nat) : Bool := new < old && slots < 2 * (old - new)

/-- Adoption of an arrival's alignment: the counter, the timer from the arrival's length (log 9), and at a forward wrap a round
boundary (R17, R18). The adopted slot is not started. The search at that boundary reads the flags as they stand, not shifted for the slots
passed over (R39), those of a record that this arrival freed among them (DESIGN CHOICE, log 36). -/
def adopt (slot bytes : Nat) (s : State) : State :=
  let wrap := forwardWrap s.slot.counter slot s.ctl.config.slots
  let s := s.modSlot fun u =>
    { u with
      counter := slot
      timer := Config.sendPoint + BitVec.ofNat 10 (frameBits bytes + Config.endOfFrameBits) }
  let s := s.modDue fun d => { d with start := false }
  if wrap then countBoundary s else s

/-- Whether a GOOD arrival from another station is adopted (R17). -/
def adopts (s : State) : Bool := s.ctl.state != .off && s.line.tx.isNone

/-! ### The end of an arrival (R9 to R13) -/

/-- The bus counter of a class rises (R13). -/
def countArrival (cls : ArrivalClass) (l : LineUnit) : LineUnit :=
  match cls with
  | .good => { l with good := satInc l.good }
  | .badCrc => { l with badCrc := satInc l.badCrc }
  | .format => { l with format := satInc l.format }
  | .planMismatch => { l with planMismatch := satInc l.planMismatch }

/-- The slot of an arrival (R12). -/
def arrivalSlot (cls : ArrivalClass) (frame : Option Frame) (start : Option Nat) : Option Nat :=
  match cls, frame with
  | .good, some f => some f.slot
  | _, _ => start

/-- The slot unit marks activity in every state but OFF (R12, R23). -/
def reportActivity (slot : Option Nat) (s : State) : State := if s.ctl.state = .off then s else markActivity slot s

/-- The LOST reports that waited for this arrival (R21). One long arrival may end two of them, deferrals in two slots: no rule orders their
reports, so neither the SLOT events nor the numbers of OWNED records in them; they are given in the order the transmissions were lost
(DESIGN CHOICE, log 30). -/
def reportLost (cls : ArrivalClass) (frame : Option Frame) (waiting : List Transmission) (s : State) : State :=
  waiting.foldl (fun s t => reportEnd t (.lost cls frame) s) s

/-- The reactions to a forward wrap's boundary that the free choices place before the arrival's reports (log 25). Those placed so are taken in
one fixed order among themselves, as they are by `takeReactions`: the leaving limit before the deadline, the deadline before the ROUND
triggers, which R156 lets come either way (DESIGN CHOICE, log 35). -/
def earlyReactions (s : State) : State :=
  let o := s.order
  let s := if o.listenFirst then takeListen s else s
  let s := if o.leavingFirst then takeLeaving s else s
  let s := if o.hostFirst then takeHost s else s
  let s := if o.agesFirst then takeAges s else s
  let s := if o.waitsFirst then takeWaits s else s
  let s := if o.deadlineFirst then takeDeadline s else s
  if o.periodsFirst then takePeriods s else s

/-- A GOOD arrival from another station is handed to the blocks (R12): the peer unit takes it first (log 7), and the LOST reports come after
the slot map has taken it (log 32); the image unit, the answer side and the request unit take it with them, and the adoption comes before or
after all of them, in the orders the free choices give (log 5). A record that the arrival frees, by LEAVING (R26) or by the report of a transmission it
ended with an unknown winner (R31, R33), carries activity last round as R23 and R39 give it, and not more: the boundary of the arrival's own
forward wrap, or the next one where no alignment is adopted from it after the end of slot n (R17), may choose it (DESIGN CHOICE, log 36). -/
def handArrival (f : Frame) (bytes : Nat) (waiting : List Transmission) (s : State) : State :=
  let o := s.order
  let align := adopts s
  let verdict := (s.peer f.source).verdict f
  let winner := waiting.any fun t => t.slot == f.slot
  let map := mapArrival f winner
  let reports := reportLost .good (some f) waiting
  let values := imageArrival f verdict
  let answers := fun s : State =>
    match f.answer with
    | some a => answerArrival f.source a s
    | none => s
  let requests := fun s : State =>
    match f.request with
    | some r => requestArrival f.source r s
    | none => s
  let s := if align ∧ o.adoptFirst then earlyReactions (adopt f.slot bytes s) else s
  let s := peerArrival f s
  let s :=
    if o.reportsFirst then answers (requests (values (reports (map s))))
    else
      let s := if o.mapBeforeValues then s else values s
      let s := if o.mapBeforeAnswers then s else answers s
      let s := map s
      let s := if o.mapBeforeValues then values s else s
      let s := if o.mapBeforeAnswers then answers s else s
      reports (requests s)
  if align ∧ ¬o.adoptFirst ∧ s.ctl.state ≠ .off then adopt f.slot bytes s else s

/-- An arrival that is not this station's own ends with a class (R9, R11 to R13). A PLAN_MISMATCH arrival's sticky fault (R85) is set before
the LOST reports that waited for it (R21), one of which may enter OFF from LEAVING: no rule orders the two (DESIGN CHOICE, log 32). -/
def otherArrival (cls : ArrivalClass) (frame : Option Frame) (bytes : Nat) (s : State) : State :=
  let waiting := s.line.lost
  let s := s.modLine fun l => { countArrival cls l with lost := [] }
  match cls, frame with
  | .good, some f =>
    if f.source = s.ctl.config.station then reportLost cls frame waiting s
    else
      let s := handArrival f bytes waiting { s with inArrival := true }
      let pass := fun x : SnapshotUnit => { x with passOver := false }
      { (s.modUnit .a pass).modUnit .b pass with inArrival := false }
  | .planMismatch, some f => reportLost cls frame waiting (peerPlanMismatch f.source s)
  | _, _ => reportLost cls frame waiting s

/-- An arrival ends with a class (R9): the receiver waits again, its slot had activity, and for another station's arrival there
is everything else. -/
def closeArrival (r : Reception) (cls : ArrivalClass) (frame : Option Frame) (s : State) : State :=
  let s := s.modLine fun l => { l with receiver := .waiting }
  let s := reportActivity (arrivalSlot cls frame r.slot) s
  if r.own then s else otherArrival cls frame r.bytes.length s

/-- The arrival in progress, if there is one, has come to its end (R2, R9). -/
def takeArrivalEnd (s : State) : State :=
  match s.line.receiver with
  | .waiting => s
  | .inside r => closeArrival r (r.classified s.ctl.config).1 (r.classified s.ctl.config).2 s

/-! ### Medium holds (R14, R15) -/

/-- The arrival a hold cuts off is FORMAT, a stop bit being missing (R9, R14). -/
def cutArrival (s : State) : State :=
  match s.line.receiver with
  | .waiting => s
  | .inside r => closeArrival r .format none s

/-- The frame assembled or being sent when a hold begins ends ABANDONED (R14). -/
def abandonAny (s : State) : State :=
  match s.line.tx with
  | some t => abandonTransmission t s
  | none => s

/-- A medium hold begins (R14): the arrival in progress ends, CLAIMING records are freed (R37), and then a frame assembled or in
transmission is ABANDONED (R32). -/
def takeHold (s : State) : State :=
  let s := raiseStation 4 0 0 (s.modLine fun l => { l with hold := true, holds := satInc l.holds })
  let s := if s.order.holdArrivalFirst then holdClaims (cutArrival s) else cutArrival (holdClaims s)
  abandonAny s

/-- The hold in force ends (R15). -/
def takeRelease (s : State) : State := raiseStation 5 0 0 (s.modLine fun l => { l with hold := false })

/-! ### One bit time (R1 to R4, R14 to R16)

The level is the one RXD shows in the middle of the bit time (log 8). -/

/-- The receiver in this bit time, `before` being the recessive run measured before it (R2). A start bit taken in OFF has no slot
(R12, log 12). -/
def hearAtReceiver (level : Level) (before : Nat) (s : State) : State :=
  let slot := if s.ctl.state = .off then none else some s.slot.counter
  s.modLine fun l => { l with receiver := l.receiver.hear level before l.hold slot }

/-- The bit read back against the bit sent (R3): a difference in either direction ends the transmission LOST; otherwise its bit time has
gone out. -/
def readBack (level : Level) (s : State) : State :=
  match s.line.tx with
  | none => s
  | some t =>
    match t.phase with
    | .assembled => s
    | .sending k =>
      if t.level = level then s.modLine fun l => { l with tx := some { t with phase := .sending (k + 1) } }
      else loseTransmission t s

/-- What RXD's level in this bit time brings before its end: the measures, a hold when a dominant run passes 20 bit times, and
otherwise the receiver and the bit read back. -/
def hearBit (level : Level) (s : State) : State :=
  let before := s.line.recessiveRun
  let s := s.modLine (·.measure level)
  if Config.holdRun < s.line.dominantRun ∧ s.line.hold = false then finish (takeHold s)
  else readBack level (hearAtReceiver level before s)

/-- A hold in force has seen its 1024 recessive bit times (R15). -/
def State.releaseDue (s : State) : Bool := s.line.hold && Config.releaseRun ≤ s.line.recessiveRun

/-- The end of this bit time ends an arrival or a hold. -/
def State.lineEnds (s : State) : Bool := s.line.receiver.ended || s.releaseDue

/-- What the line has come to at the end of a bit time: the end of an arrival (R2) or of a hold (R15). -/
def takeLineEnd (s : State) : State :=
  let s := if s.line.receiver.ended then takeArrivalEnd s else s
  if s.releaseDue then takeRelease s else s

/-- The end of this bit time brings the end of the slot, or the send point of an assembled frame. -/
def State.slotTimeEnds (s : State) : Bool :=
  s.ctl.state != .off
    && (s.slot.timer == Config.lastBit || (s.slot.timer + 1 == Config.sendPoint && s.line.tx.any (!·.phase.isSending)))

/-- The slot timer takes one step, or passes 1023 (R16); at 16 comes the send point (R4). It stands still in OFF. -/
def stepTimer (s : State) : State :=
  if s.ctl.state = .off then s
  else if s.slot.timer = Config.lastBit then passSlot s
  else
    let s := s.modSlot fun u => { u with timer := u.timer + 1 }
    if s.slot.timer = Config.sendPoint then takeSendPoint s else s

/-- The end of a bit time: a frame's last stop bit, then the slot timer's step and the line's event. Where the line and slot time both have
an event at this one moment, the free choices give their order (log 9); an adoption that comes first leaves the timer at its value for this
moment (R17), so that the slot left has no end (R18). The triggers of B that wait are not answered between the two: they are of one moment
(R149, log 20). -/
def endBit (s : State) : State :=
  let s := takeSent s
  if s.lineEnds && s.slotTimeEnds then
    if s.order.lineFirst then
      let t := finish (takeLineEnd s)
      if t.slot.timer = s.slot.timer then stepTimer t else t
    else takeLineEnd (finish (takeAllDue (stepTimer s)))
  else takeLineEnd (stepTimer s)

/-- One bit time passes, in which RXD shows a level. -/
def bitTime (level : Level) (s : State) : State :=
  finish (endBit (hearBit level (pastBeginning (passMoment s))))

/-- Bit times pass, one for each level. -/
def passBits (rxd : List Level) (s : State) : State := rxd.foldl (fun s level => bitTime level s) s

end Sys2Proof.Machine
end

