-- ==== Sys2Proof/Machine/Bus.lean ====
section
/-! DEFINITION. The events of bus time (chapter 1): each is the passing of the bit times whose levels the row carries, in or at the end of
the last of which the event named comes (log 8). What a bit time brings is `bitTime`'s, in every row alike. -/

namespace Sys2Proof.Machine

/-- The bit times of a row pass. -/
def passRow (before : List Level) (last : Level) (s : State) : Host.Outcome State Fault Refusal :=
  .next (whenLive (passBits (before ++ [last])) s)

/-- START_BIT_TAKEN (R2): the last level is the leading edge of a start bit. -/
def execStartBitTaken (before : List Level) (s : State) (last : Level := .dominant) : Host.Outcome State Fault Refusal :=
  passRow before last s

/-- ARRIVAL_END (R2, R9 to R13): the last level is the arrival's twelfth recessive bit time. -/
def execArrivalEnd (before : List Level) (last : Level) (s : State) : Host.Outcome State Fault Refusal :=
  passRow before last s

/-- ARBITRATION_LOSS (R3): the last level differs from the bit sent. -/
def execArbitrationLoss (before : List Level) (last : Level) (s : State) : Host.Outcome State Fault Refusal :=
  passRow before last s

/-- SEND_POINT (R4): the slot timer reaches 16 at the end of the last bit time. -/
def execSendPoint (s : State) (before : List Level := []) (last : Level := .recessive) : Host.Outcome State Fault Refusal :=
  passRow before last s

/-- TRANSMISSION_SENT (R21): the last level is the frame's last stop bit. -/
def execTransmissionSent (s : State) (before : List Level := []) (last : Level := .recessive) : Host.Outcome State Fault Refusal :=
  passRow before last s

/-- HOLD_BEGIN (R14): the last level is the dominant run's twenty-first. -/
def execHoldBegin (before : List Level) (s : State) (last : Level := .dominant) : Host.Outcome State Fault Refusal :=
  passRow before last s

/-- HOLD_END (R15): the last level is the recessive run's 1024th. -/
def execHoldEnd (before : List Level) (s : State) (last : Level := .recessive) : Host.Outcome State Fault Refusal :=
  passRow before last s

/-- END_OF_SLOT (R16, R23, R27): the slot timer passes 1023 at the end of the last bit time. -/
def execEndOfSlot (s : State) (before : List Level := []) (last : Level := .recessive) : Host.Outcome State Fault Refusal :=
  passRow before last s

end Sys2Proof.Machine
end

