-- ==== Sys2Proof/Machine/Command.lean ====
section
/-! DEFINITION. The command unit (chapter 10): the taking of a command, its refusal, its completion, and the reset. The effect of each command is
in the file of its family. -/

namespace Sys2Proof.Machine

/-- What a command's effect answers: the state it leaves, the result it completes with and the words it returns, which are
always the first ARG words (R164, R165). -/
structure Reply where
  state : State
  result : ResultCode
  returned : List Word
deriving DecidableEq, Repr

/-- A command that completes with a result other than OK, or with nothing to change, and returns no word (R164). -/
def Reply.only (result : ResultCode) (s : State) : Reply := ⟨s, result, []⟩

/-- The word written to COMMAND: bit 31 clear, bits 30..24, the code and the operand (section 10.2). -/
def commandWord (top : BitVec 7) (code : Byte) (operand : Half) : Word := 0#1 ++ top ++ code ++ operand

/-- Bits 23..16 of a command word. -/
def commandWordCode (word : Word) : Byte := word.extractLsb' 16 8

/-- A write to COMMAND that is refused sets the refused flag and nothing else (R166, R172). -/
def refuse (s : State) : State := s.modHost fun h => { h with refused := true }

/-- The command unit takes a command: RESULT reads 0, COMMAND its word, and it runs on the arguments as they stand (R165). -/
def startCommand (word : Word) (r : Reply) (args : List Word) : State :=
  r.state.modHost fun h => { h with result := 0, running := some ⟨word, args, r.result, r.returned⟩ }

/-- A write to COMMAND with bit 31 clear and a code other than RESET: taken when no command runs, refused otherwise, and not
seen while RESETN is held low (R165, R166, R172, R173). The moment before is over then (log 2), and the effect is applied at the
taking (log 4). -/
def takeCommand (word : Word) (effect : List Word → State → Reply) (s : State) : State :=
  match s.host.resetting with
  | .held => s
  | .running _ => refuse s
  | .idle =>
    match s.host.running with
    | some _ => refuse s
    | none =>
      let s := settle s
      startCommand word (effect s.host.args s) s.host.args

/-- The completion of the running command: the returned ARG words, then RESULT, then COMMAND (R165). -/
def completeCommand (h : HostLink) (c : Running) : HostLink :=
  { h with
    args := c.returned ++ h.args.drop c.returned.length
    result := BitVec.ofNat 8 c.result.code ++ commandWordCode c.word ++ c.word.extractLsb' 0 16
    running := none }

/-- Every piece of state takes its reset value (R172): the queue of commands, the TRIG pin's level and the model's own free
choices are no state of the controller and stay (log 14). -/
def resetState (phase : ResetPhase) (s : State) : State :=
  { State.reset with
    host := { HostLink.reset with result := 0, resetting := phase }
    trig := s.trig
    order := s.order
    freeCount := s.freeCount
    pending := s.pending }

/-- The RESET command's word is taken, while a command or a reset runs too (R172). -/
def takeReset (word : Word) (s : State) : State :=
  if s.host.resetting = .held then s else resetState (.running word) s

/-- The word COMMAND reads while a reset begun by RESETN runs (R173, log 14). -/
def resetnWord : Word := 0x00010000

/-- The end of a running reset: RESULT holds OK with code 01h and operand 0, COMMAND reads 0, and TRIG's level is the
starting level (R172, R173). -/
def completeReset (s : State) : State :=
  { s with
    host := { s.host with result := 0x01010000, resetting := .idle }
    trig := { s.trig with followed := s.trig.pin } }

end Sys2Proof.Machine
end

