-- ==== Sys2Proof/Machine/ImageCommands.lean ====
section
/-! DEFINITION. The commands of the image unit, the watches and the peer unit (chapters 5, 6 and 7). -/

namespace Sys2Proof.Machine

/-! ### The image table -/

/-- The entry SUBSCRIBE makes (R100), before it is judged. -/
def subscribed (args : List Word) : ImageEntry :=
  let fallback := if argN args 4 = 1 then some (arg args 5) else none
  { ImageEntry.free with
    state := .resolving
    source := argN args 1
    point := argN args 2
    staleLimit := argN args 3
    value := fallback.getD 0
    fallback := fallback }

/-- A RESOLVING entry is judged at SUBSCRIBE: by R103 when its source's catalogue is KNOWN, by R104 when it is FAILED. -/
def judgeSubscribed (i : Nat) (s : State) : State :=
  if (s.peer (s.entry i).source).catalogue = .failed then passEntry i (.failed .noCatalogue) (some 5) s else resolveEntry i s

/-- SUBSCRIBE (R100). -/
def subscribeEffect (args : List Word) (s : State) : Reply :=
  let i := argN args 0
  let n := argN args 1
  if Config.imageEntries ≤ i then Reply.only .badArgument s
  else if n = 0 ∨ Config.stations < n ∨ n = s.ctl.config.station then Reply.only .badArgument s
  else if Config.maxPoints ≤ argN args 2 then Reply.only .badArgument s
  else if argN args 3 = 0 ∨ 15 < argN args 3 then Reply.only .badArgument s
  else if 1 < argN args 4 then Reply.only .badArgument s
  else if (s.entry i).state ≠ .free then Reply.only .busy s
  else Reply.only .ok (finish (judgeSubscribed i (s.modEntry i fun _ => subscribed args)))

/-- UNSUBSCRIBE (R101): the passage to FREE is reported to the collector (R116). -/
def unsubscribeEffect (args : List Word) (s : State) : Reply :=
  let i := argN args 0
  if Config.imageEntries ≤ i then Reply.only .badArgument s
  else if (s.entry i).state = .free then Reply.only .notFound s
  else Reply.only .ok (finish (missEntry i (s.modEntry i fun _ => ImageEntry.free)))

/-- The reason code of a FAILED entry, 0 in another state (R99, R102). -/
def EntryState.reasonCode : EntryState → Nat
  | .failed r => r.code
  | .free => 0
  | .resolving => 0
  | .waiting => 0
  | .fresh => 0
  | .stale => 0
  | .lost => 0

/-- The layout word (R102). -/
def layoutWord : Option EntryLayout → Word
  | some l => BitVec.ofNat 16 l.offset ++ BitVec.ofNat 8 l.width.bits ++ BitVec.ofNat 8 l.format.code
  | none => 0xFFFF0000

/-- The watch's zone code, 0 without a watch (R102, R117). -/
def watchCode : Option Watch → Nat
  | some w => w.zone.code
  | none => 0

/-- The eight words of READ_IMAGE (R102). -/
def ImageEntry.words (e : ImageEntry) : List Word :=
  if e.state = .free then List.replicate 8 0
  else
    [pack2 e.state.code e.state.reasonCode, pack2 e.source e.point, pack2 e.staleLimit e.age, e.value,
      e.updates.setWidth 32, pack2 (bit e.fallback.isSome) (watchCode e.watch), e.fallback.getD 0, layoutWord e.layout]

/-- READ_IMAGE (R102). -/
def readImageEffect (args : List Word) (s : State) : Reply :=
  if Config.imageEntries ≤ argN args 0 then Reply.only .badArgument s else ⟨s, .ok, (s.entry (argN args 0)).words⟩

/-! ### Watches -/

/-- SET_WATCH's last check: the limits in order, in the layout's format, or without a layout in either reading (R122). -/
def limitsInOrder (layout : Option EntryLayout) (low high : Word) : Bool :=
  match layout with
  | some l => !lessThan l.format high low
  | none => !lessThan .signed high low || !lessThan .unsigned high low

/-- The watch SET_WATCH makes (R122). -/
def watchOf (args : List Word) : Watch :=
  ⟨arg args 1, arg args 2, (arg args 3).getLsbD 0, (arg args 3).getLsbD 1, (arg args 3).getLsbD 2, .unknown⟩

/-- A FRESH entry's new watch is evaluated at once, in the format of its layout (R122). -/
def evaluateIfFresh (i : Nat) (s : State) : State :=
  match (s.entry i).state, (s.entry i).layout with
  | .fresh, some l => evaluateWatch i l.format s
  | _, _ => s

/-- SET_WATCH (R122). -/
def setWatchEffect (args : List Word) (s : State) : Reply :=
  let i := argN args 0
  if Config.imageEntries ≤ i then Reply.only .badArgument s
  else if 7 < argN args 3 then Reply.only .badArgument s
  else if (s.entry i).state = .free then Reply.only .notFound s
  else if limitsInOrder (s.entry i).layout (arg args 1) (arg args 2) then
    Reply.only .ok (finish (takeCall (evaluateIfFresh i (s.modEntry i fun e => { e with watch := some (watchOf args) }))))
  else Reply.only .badArgument s

/-- CLEAR_WATCH (R123). -/
def clearWatchEffect (args : List Word) (s : State) : Reply :=
  let i := argN args 0
  if Config.imageEntries ≤ i then Reply.only .badArgument s
  else if (s.entry i).state = .free ∨ (s.entry i).watch = none then Reply.only .notFound s
  else Reply.only .ok (s.modEntry i fun e => { e with watch := none })

/-! ### The peer table -/

/-- A station number out of range (R95 to R97). -/
def badStation (n : Nat) : Bool := n == 0 || Config.stations < n

/-- The shape mask: bit i is 1 when place i holds a shape (R95). -/
def shapeMask : List (Option Shape) → Nat
  | [] => 0
  | sh :: shs => bit sh.isSome + 2 * shapeMask shs

/-- The eight words of READ_PEER (R95). -/
def PeerRecord.words (p : PeerRecord) : List Word :=
  [pack2 p.presence.code (bit p.wentAbsent), BitVec.ofNat 32 p.lastCond.code,
    BitVec.ofNat 32 ((p.lastSequence.map (·.toNat)).getD 256), pack2 p.framesMissed.toNat p.fetchFailures.toNat,
    BitVec.ofNat 32 p.faults.code, pack2 p.catalogue.code (p.count.getD 255),
    BitVec.ofNat 32 ((p.layout.map (·.bits)).getD 0), BitVec.ofNat 32 (shapeMask p.shapes)]

/-- READ_PEER (R95): the went-absent latch is cleared. -/
def readPeerEffect (args : List Word) (s : State) : Reply :=
  let n := argN args 0
  if badStation n then Reply.only .badArgument s
  else ⟨s.modPeer n fun p => { p with wentAbsent := false }, .ok, (s.peer n).words⟩

/-- The four words of READ_SHAPE (R96): the offset while the catalogue is KNOWN and the shape is sent, 65535 otherwise. -/
def shapeWords (p : PeerRecord) (i : Nat) (sh : Shape) : List Word :=
  let offset :=
    match p.catalogue, p.layout with
    | .known, some l => if sh.direction.sent then (l.offsets.getD i none).getD 65535 else 65535
    | _, _ => 65535
  [BitVec.ofNat 32 sh.width.bits, BitVec.ofNat 32 sh.format.code, BitVec.ofNat 32 sh.direction.code, BitVec.ofNat 32 offset]

/-- READ_SHAPE (R96). -/
def readShapeEffect (args : List Word) (s : State) : Reply :=
  let n := argN args 0
  if badStation n ∨ Config.maxPoints ≤ argN args 1 then Reply.only .badArgument s
  else
    match (s.peer n).shapeAt (argN args 1) with
    | none => Reply.only .notFound s
    | some sh => ⟨s, .ok, shapeWords (s.peer n) (argN args 1) sh⟩

/-- REFRESH_PEER (R97): a FAILED catalogue returns to FETCHING, keeping what it holds. -/
def refreshPeerEffect (args : List Word) (s : State) : Reply :=
  let n := argN args 0
  if badStation n then Reply.only .badArgument s
  else if (s.peer n).catalogue = .failed then
    Reply.only .ok (finish (imageRetried n (s.modPeer n fun p => { p with catalogue := .fetching })))
  else Reply.only .ok s

/-! ### The meanings -/

/-- SUBSCRIBE: a write to COMMAND with code 0Bh. -/
def execSubscribe (top : BitVec 7) (operand : Half) (s : State) : Host.Outcome State Fault Refusal :=
  .next (takeCommand (commandWord top 0x0B operand) subscribeEffect s)

/-- UNSUBSCRIBE: a write to COMMAND with code 0Ch. -/
def execUnsubscribe (top : BitVec 7) (operand : Half) (s : State) : Host.Outcome State Fault Refusal :=
  .next (takeCommand (commandWord top 0x0C operand) unsubscribeEffect s)

/-- READ_IMAGE: a write to COMMAND with code 0Dh. -/
def execReadImage (top : BitVec 7) (operand : Half) (s : State) : Host.Outcome State Fault Refusal :=
  .next (takeCommand (commandWord top 0x0D operand) readImageEffect s)

/-- SET_WATCH: a write to COMMAND with code 0Eh. -/
def execSetWatch (top : BitVec 7) (operand : Half) (s : State) : Host.Outcome State Fault Refusal :=
  .next (takeCommand (commandWord top 0x0E operand) setWatchEffect s)

/-- CLEAR_WATCH: a write to COMMAND with code 0Fh. -/
def execClearWatch (top : BitVec 7) (operand : Half) (s : State) : Host.Outcome State Fault Refusal :=
  .next (takeCommand (commandWord top 0x0F operand) clearWatchEffect s)

/-- READ_PEER: a write to COMMAND with code 10h. -/
def execReadPeer (top : BitVec 7) (operand : Half) (s : State) : Host.Outcome State Fault Refusal :=
  .next (takeCommand (commandWord top 0x10 operand) readPeerEffect s)

/-- READ_SHAPE: a write to COMMAND with code 11h. -/
def execReadShape (top : BitVec 7) (operand : Half) (s : State) : Host.Outcome State Fault Refusal :=
  .next (takeCommand (commandWord top 0x11 operand) readShapeEffect s)

/-- REFRESH_PEER: a write to COMMAND with code 12h. -/
def execRefreshPeer (top : BitVec 7) (operand : Half) (s : State) : Host.Outcome State Fault Refusal :=
  .next (takeCommand (commandWord top 0x12 operand) refreshPeerEffect s)

end Sys2Proof.Machine
end

