-- ==== Sys2Proof/Machine/RequestCommands.lean ====
section
/-! DEFINITION. The commands of the request unit (chapter 8). -/

namespace Sys2Proof.Machine

/-- The application record most recently entered that is still in the list (R131). -/
def RequestUnit.lastApplication (u : RequestUnit) : Option RequestRecord := u.list.reverse.find? (·.origin == .application)

/-- A predecessor that has ended already breaks a record entered after it (R131, R133). -/
def RequestRecord.breaksAtEntry (p : RequestRecord) (check : Bool) : Bool :=
  match p.state, p.outcome with
  | .failed, _ => true
  | .answered, some (.answer .ok) => false
  | .answered, some (.answer _) => check
  | _, _ => false

/-- The tags SEND_REQUEST returns: the record's, and the predecessor's or 16 (R131). -/
def sentTags (tag : Nat) (predecessor : Option RequestRecord) : List Word :=
  [BitVec.ofNat 32 tag, BitVec.ofNat 32 ((predecessor.map (·.tag)).getD 16)]

/-- A SEND_REQUEST that passes its checks (R131). -/
def enterApplication (args : List Word) (kind : RequestKind) (s : State) : Reply :=
  let check := (arg args 4).getLsbD 1
  let predecessor := if (arg args 4).getLsbD 0 then s.req.lastApplication else none
  let tag := s.req.nextTag
  let id := s.serial
  let value := if kind = .writePoint then some (arg args 3) else none
  let s := enterRecord .application (argN args 0) kind (argN args 2) value (predecessor.map (·.id)) check s
  let s := if predecessor.any (·.breaksAtEntry check) then endRecord id .chainBroken .nothing s else s
  ⟨finish s, .ok, sentTags tag predecessor⟩

/-- SEND_REQUEST (R130). -/
def sendRequestEffect (args : List Word) (s : State) : Reply :=
  if ¬(s.ctl.state = .claiming ∨ s.ctl.state = .member) then Reply.only .wrongState s
  else if Config.stations < argN args 0 ∨ argN args 0 = s.ctl.config.station then Reply.only .badArgument s
  else
    match RequestKind.ofNat? (argN args 1) with
    | none => Reply.only .badArgument s
    | some kind =>
      if argN args 0 = 0 ∧ kind ≠ .writePoint then Reply.only .badArgument s
      else if Config.maxPoints ≤ argN args 2 then Reply.only .badArgument s
      else if 3 < argN args 4 then Reply.only .badArgument s
      else if Config.maxRequests ≤ s.req.list.length then Reply.only .full s
      else enterApplication args kind s

/-- An ended application record (R143). -/
def RequestRecord.ended (r : RequestRecord) : Bool := r.origin == .application && !r.state.live

/-- The record TAKE_RESULT names: the ended one with the tag, or for 16 the first ended one (R143). -/
def RequestUnit.resultFor (u : RequestUnit) (tag : Nat) : Option RequestRecord :=
  u.list.find? fun r => r.ended && (tag == 16 || r.tag == tag)

/-- The second to the last word of TAKE_RESULT by the record's content (R143). -/
def resultContent (r : RequestRecord) : List Word :=
  match r.content with
  | .nothing => [pack4 r.target r.attempts 0 0, 0, 0, 0, 0, 0, 0]
  | .value v => [pack4 r.target r.attempts 0 0, v, 0, 0, 0, 0, 0]
  | .count n => [pack4 r.target r.attempts 0 0, BitVec.ofNat 32 n, 0, 0, 0, 0, 0]
  | .descriptor d =>
    [pack4 r.target r.attempts d.name.length d.unit.length, d.low, d.high, packChars d.name, packChars (d.name.drop 4),
      packChars d.unit, pack4 d.width.bits d.format.code d.direction.code 0]

/-- The eight words of TAKE_RESULT (R143). -/
def RequestRecord.words (r : RequestRecord) : List Word :=
  pack4 r.tag ((r.outcome.map RequestOutcome.code).getD 0) r.kind.code r.index :: resultContent r

/-- TAKE_RESULT (R143). -/
def takeResultEffect (args : List Word) (s : State) : Reply :=
  if 16 < argN args 0 then Reply.only .badArgument s
  else
    match s.req.resultFor (argN args 0) with
    | none => Reply.only .notFound s
    | some r => ⟨removeRecord r.id s, .ok, r.words⟩

/-- The removal of a cancelled record; an application record that had not ended breaks its successors first (R144). -/
def cancelRecord (r : RequestRecord) (s : State) : State :=
  removeRecord r.id (if r.origin = .application ∧ r.state.live then breakChain s.recordIds [r.id] [] s else s)

/-- CANCEL_REQUEST (R144). -/
def cancelRequestEffect (args : List Word) (s : State) : Reply :=
  if 15 < argN args 0 then Reply.only .badArgument s
  else
    match s.req.list.find? (·.tag == argN args 0) with
    | none => Reply.only .notFound s
    | some r => Reply.only .ok (finish (cancelRecord r s))

/-! ### The meanings -/

/-- SEND_REQUEST: a write to COMMAND with code 14h. -/
def execSendRequest (top : BitVec 7) (operand : Half) (s : State) : Host.Outcome State Fault Refusal :=
  .next (takeCommand (commandWord top 0x14 operand) sendRequestEffect s)

/-- TAKE_RESULT: a write to COMMAND with code 15h. -/
def execTakeResult (top : BitVec 7) (operand : Half) (s : State) : Host.Outcome State Fault Refusal :=
  .next (takeCommand (commandWord top 0x15 operand) takeResultEffect s)

/-- CANCEL_REQUEST: a write to COMMAND with code 16h. -/
def execCancelRequest (top : BitVec 7) (operand : Half) (s : State) : Host.Outcome State Fault Refusal :=
  .next (takeCommand (commandWord top 0x16 operand) cancelRequestEffect s)

end Sys2Proof.Machine
end

