-- ==== Sys2Proof/Machine/SnapshotCommands.lean ====
section
/-! DEFINITION. The commands of the snapshot units (chapter 9). -/

namespace Sys2Proof.Machine

/-- The entry indexes of SET_SNAPSHOT: four in each of ARG3 to ARG6, the first in the most significant byte (R158). -/
def setOf (args : List Word) : List Nat :=
  ((charsOf [arg args 3, arg args 4, arg args 5, arg args 6]).take (argN args 2)).map (·.toNat)

/-- SET_SNAPSHOT's checks on the options, the deadline and the set, in the order of its table; all give BAD_ARGUMENT (R158). -/
def programInRange (args : List Word) : Bool :=
  (byteOf (arg args 0) 1).toNat ≤ 3 && 1 ≤ (byteOf (arg args 0) 0).toNat && (byteOf (arg args 0) 0).toNat ≤ 15
    && 1 ≤ argN args 2 && argN args 2 ≤ 16
    && (setOf args).all (· < Config.imageEntries) && decide (setOf args).Nodup

/-- A unit programmed with trigger none (R159). -/
def SnapshotUnit.disarmed (x : SnapshotUnit) : SnapshotUnit :=
  { x with
    state := .off
    trigger := .nothing
    set := []
    hold := false
    oneShot := false
    deadline := 1
    periodCount := 0
    ignored := 0 }

/-- A unit programmed with a trigger (R159). -/
def SnapshotUnit.programmed (args : List Word) (t : Trigger) (x : SnapshotUnit) : SnapshotUnit :=
  { x with
    state := .armed
    trigger := t
    set := setOf args
    hold := (byteOf (arg args 0) 1).getLsbD 0
    oneShot := (byteOf (arg args 0) 1).getLsbD 1
    deadline := (byteOf (arg args 0) 0).toNat
    periodCount := 0
    ignored := 0 }

/-- SET_SNAPSHOT (R158, R159). -/
def setSnapshotEffect (args : List Word) (s : State) : Reply :=
  match UnitId.ofNat? (byteOf (arg args 0) 3).toNat with
  | none => Reply.only .badArgument s
  | some u =>
    if (s.unit u).state = .collecting then Reply.only .busy s
    else
      match triggerOf (byteOf (arg args 0) 2).toNat (argN args 1) with
      | none => Reply.only .badArgument s
      | some .nothing => Reply.only .ok (s.modUnit u (·.disarmed))
      | some t =>
        if programInRange args then Reply.only .ok (s.modUnit u (·.programmed args t)) else Reply.only .badArgument s

/-- The state codes of A and B (R150). -/
def unitStates (s : State) : List Word := [BitVec.ofNat 32 s.unitA.state.code, BitVec.ofNat 32 s.unitB.state.code]

/-- FIRE_SNAPSHOT (R150). -/
def fireSnapshotEffect (args : List Word) (s : State) : Reply :=
  let toA := (arg args 0).getLsbD 0
  let toB := (arg args 0).getLsbD 1
  if argN args 0 = 0 ∨ 3 < argN args 0 then Reply.only .badArgument s
  else if (toA ∧ s.unitA.trigger ≠ .command) ∨ (toB ∧ s.unitB.trigger ≠ .command) then Reply.only .wrongState s
  else
    let t := takeCall (giveTriggers toA toB s)
    ⟨finish t, .ok, unitStates t⟩

/-- REARM_SNAPSHOT (R160). -/
def rearmSnapshotEffect (args : List Word) (s : State) : Reply :=
  match UnitId.ofNat? (argN args 0) with
  | none => Reply.only .badArgument s
  | some u =>
    match (s.unit u).state with
    | .off => Reply.only .wrongState s
    | .spent => Reply.only .ok (s.modUnit u fun x => { x with state := .armed })
    | .armed => Reply.only .ok s
    | .pending => Reply.only .ok s
    | .collecting => Reply.only .ok s

/-- Entry, status, value and stamp of a place, zeros where the result has none (R161). -/
def placeWords : Option Place → List Word
  | some p => [BitVec.ofNat 32 p.entry, BitVec.ofNat 32 p.status.code, p.value, p.stamp.setWidth 32]
  | none => [0, 0, 0, 0]

/-- The eight words of READ_SNAPSHOT (R161). -/
def SnapshotUnit.words (x : SnapshotUnit) (place : Nat) : List Word :=
  [pack2 x.state.code x.summary.code, x.start ++ BitVec.ofNat 16 x.places.length, x.ignored.setWidth 32]
    ++ placeWords (getElem? x.places place) ++ [pack2 x.captured x.missing]

/-- READ_SNAPSHOT (R161). -/
def readSnapshotEffect (args : List Word) (s : State) : Reply :=
  match UnitId.ofNat? (argN args 0) with
  | none => Reply.only .badArgument s
  | some u =>
    if 15 < argN args 1 then Reply.only .badArgument s
    else if (s.unit u).state = .collecting then Reply.only .busy s
    else ⟨s, .ok, (s.unit u).words (argN args 1)⟩

/-! ### The meanings -/

/-- SET_SNAPSHOT: a write to COMMAND with code 17h. -/
def execSetSnapshot (top : BitVec 7) (operand : Half) (s : State) : Host.Outcome State Fault Refusal :=
  .next (takeCommand (commandWord top 0x17 operand) setSnapshotEffect s)

/-- FIRE_SNAPSHOT: a write to COMMAND with code 18h. -/
def execFireSnapshot (top : BitVec 7) (operand : Half) (s : State) : Host.Outcome State Fault Refusal :=
  .next (takeCommand (commandWord top 0x18 operand) fireSnapshotEffect s)

/-- REARM_SNAPSHOT: a write to COMMAND with code 19h. -/
def execRearmSnapshot (top : BitVec 7) (operand : Half) (s : State) : Host.Outcome State Fault Refusal :=
  .next (takeCommand (commandWord top 0x19 operand) rearmSnapshotEffect s)

/-- READ_SNAPSHOT: a write to COMMAND with code 1Ah. -/
def execReadSnapshot (top : BitVec 7) (operand : Half) (s : State) : Host.Outcome State Fault Refusal :=
  .next (takeCommand (commandWord top 0x1A operand) readSnapshotEffect s)

end Sys2Proof.Machine
end

