-- ==== Sys2Proof/Machine/StationCommands.lean ====
section
/-! DEFINITION. The commands of station control, the slot unit and the publication unit (chapters 2, 3 and 4). -/

namespace Sys2Proof.Machine

/-! ### Station control -/

/-- The five fields of CONFIGURE, when each is in its range (R43, R44). -/
def configurationOf (args : List Word) : Option Configuration :=
  let c : Configuration := ⟨argN args 0, argN args 1, argN args 2, argN args 3, argN args 4⟩
  if 1 ≤ c.station ∧ c.station ≤ Config.stations ∧ 8 ≤ c.slots ∧ c.slots ≤ 64 ∧ c.rate ≤ 3
      ∧ c.want ≤ 4 ∧ c.want ≤ c.slots ∧ c.timeout ≤ 255 then some c
  else none

/-- CONFIGURE (R44): the slot map then holds SLOTS records, every one FREE (R22). -/
def configureEffect (args : List Word) (s : State) : Reply :=
  if s.ctl.state ≠ .off then Reply.only .wrongState s
  else
    match configurationOf args with
    | none => Reply.only .badArgument s
    | some c =>
      Reply.only .ok <|
        (s.modCtl fun x => { x with config := c }).modSlot fun u => { u with map := List.replicate c.slots SlotRecord.reset }

/-- The station leaves OFF (R46): the slot timer at 0 in slot 0, with nothing due, the listening count and the host-loss count
at 0. -/
def joinAs (st : StationState) (s : State) : State :=
  passStation st 1 <|
    dueOff ((s.modSlot fun u => { u with timer := 0, counter := 0 }).modCtl fun c => { c with listening := 0, hostLoss := 0 })

/-- JOIN (R46). -/
def joinEffect (args : List Word) (s : State) : Reply :=
  if s.ctl.state ≠ .off then Reply.only .wrongState s
  else if s.ctl.config.station = 0 then Reply.only .wrongState s
  else if argN args 0 = 1 then
    if s.ctl.config.want = 0 then Reply.only .badArgument s else Reply.only .ok (finish (joinAs .listening s))
  else if argN args 0 = 2 then Reply.only .ok (finish (joinAs .observer s))
  else Reply.only .badArgument s

/-- LEAVE (R50). -/
def leaveEffect (_ : List Word) (s : State) : Reply :=
  match s.ctl.state with
  | .off => Reply.only .wrongState s
  | .listening => Reply.only .ok (finish (enterOff 5 s))
  | .observer => Reply.only .ok (finish (enterOff 5 s))
  | .claiming => Reply.only .ok (finish (enterLeaving s))
  | .member => Reply.only .ok (finish (enterLeaving s))
  | .leaving => Reply.only .ok s

/-- Sets or clears LOCAL_FAULT. -/
def setLocalFault (b : Bool) (s : State) : State := s.modCtl fun c => { c with cond := { c.cond with localFault := b } }

/-- SET_CONDITION (R54). -/
def setConditionEffect (args : List Word) (s : State) : Reply :=
  if argN args 0 = 1 then Reply.only .ok (setLocalFault true s)
  else if argN args 0 = 0 then Reply.only .ok (setLocalFault false s)
  else Reply.only .badArgument s

/-- FEED (R56). -/
def feedEffect (_ : List Word) (s : State) : Reply := Reply.only .ok (finish (feedTimer s))

/-! ### Publication -/

/-- DEFINE_POINT (R60, R61). -/
def definePointEffect (args : List Word) (s : State) : Reply :=
  let i := (byteOf (arg args 0) 3).toNat
  if s.ctl.state ≠ .off then Reply.only .wrongState s
  else if Config.maxPoints ≤ i ∨ s.pub.catalogue.length < i then Reply.only .badArgument s
  else
    match descriptorOf args with
    | none => Reply.only .badArgument s
    | some d =>
      let c := placePoint s.pub.catalogue i ⟨d, d.low, 0⟩
      if Config.maxPublishedBits < publishedBits c then Reply.only .full s
      else Reply.only .ok (s.modPub fun p => { p with catalogue := c })

/-- CLEAR_CATALOGUE (R62). -/
def clearCatalogueEffect (_ : List Word) (s : State) : Reply :=
  if s.ctl.state ≠ .off then Reply.only .wrongState s
  else Reply.only .ok (s.modPub fun p => { p with catalogue := [] })

/-- Whether a value may be set at a point (R64). -/
def Point.admits (p : Point) (v : Word) : Bool :=
  fits p.descriptor.width p.descriptor.format v && withinLimits p.descriptor v

/-- The host's value replaces a point's value (R64). -/
def setPointValue (i : Nat) (v : Word) (s : State) : State :=
  s.modPub fun p => { p with catalogue := p.catalogue.modify i fun q => { q with value := v, writer := 0 } }

/-- SET_POINT (R64): an OK result is a feed (R56). -/
def setPointEffect (args : List Word) (s : State) : Reply :=
  match getElem? s.pub.catalogue (argN args 0) with
  | none => Reply.only .badArgument s
  | some p =>
    if p.admits (arg args 1) then Reply.only .ok (finish (feedTimer (setPointValue (argN args 0) (arg args 1) s)))
    else Reply.only .badArgument s

/-- GET_POINT (R65). -/
def getPointEffect (args : List Word) (s : State) : Reply :=
  match getElem? s.pub.catalogue (argN args 0) with
  | none => Reply.only .badArgument s
  | some p => ⟨s, .ok, [p.value, BitVec.ofNat 32 p.writer]⟩

/-! ### The slot map and the counters -/

/-- State code, owner and count of a record (R41). -/
def SlotState.words (own : Nat) : SlotState → List Word
  | .free => [0, 0, 0]
  | .heard owner silence => [1, BitVec.ofNat 32 owner, BitVec.ofNat 32 silence]
  | .claiming clean => [2, BitVec.ofNat 32 own, BitVec.ofNat 32 clean]
  | .owned clash => [3, BitVec.ofNat 32 own, BitVec.ofNat 32 clash]

/-- The eight words of READ_SLOT (R41). -/
def slotWords (k : Nat) (s : State) : List Word :=
  let r := s.slotAt k
  r.state.words s.ctl.config.station
    ++ [BitVec.ofNat 32 (bit r.activityThis), BitVec.ofNat 32 (bit r.activityLast), BitVec.ofNat 32 (bit r.ownerHeard),
        BitVec.ofNat 32 s.slot.counter, s.slot.round.setWidth 32]

/-- READ_SLOT (R41). -/
def readSlotEffect (args : List Word) (s : State) : Reply :=
  if s.ctl.config.slots ≤ argN args 0 then Reply.only .badArgument s else ⟨s, .ok, slotWords (argN args 0) s⟩

/-- The six words of READ_COUNTERS (R171). -/
def counterWords (s : State) : List Word :=
  [s.line.good ++ s.line.badCrc, s.line.format ++ s.line.planMismatch, s.line.arbitrationLosses ++ s.line.holds,
    s.slot.outOfStep ++ s.pub.dropped, s.pub.notServed ++ s.pub.broadcastIgnored, s.req.lateAnswers ++ 0#16]

/-- READ_COUNTERS (R171). -/
def readCountersEffect (_ : List Word) (s : State) : Reply := ⟨s, .ok, counterWords s⟩

/-! ### The meanings -/

/-- CONFIGURE: a write to COMMAND with code 02h. -/
def execConfigure (top : BitVec 7) (operand : Half) (s : State) : Host.Outcome State Fault Refusal :=
  .next (takeCommand (commandWord top 0x02 operand) configureEffect s)

/-- DEFINE_POINT: a write to COMMAND with code 03h. -/
def execDefinePoint (top : BitVec 7) (operand : Half) (s : State) : Host.Outcome State Fault Refusal :=
  .next (takeCommand (commandWord top 0x03 operand) definePointEffect s)

/-- CLEAR_CATALOGUE: a write to COMMAND with code 04h. -/
def execClearCatalogue (top : BitVec 7) (operand : Half) (s : State) : Host.Outcome State Fault Refusal :=
  .next (takeCommand (commandWord top 0x04 operand) clearCatalogueEffect s)

/-- JOIN: a write to COMMAND with code 05h. -/
def execJoin (top : BitVec 7) (operand : Half) (s : State) : Host.Outcome State Fault Refusal :=
  .next (takeCommand (commandWord top 0x05 operand) joinEffect s)

/-- LEAVE: a write to COMMAND with code 06h. -/
def execLeave (top : BitVec 7) (operand : Half) (s : State) : Host.Outcome State Fault Refusal :=
  .next (takeCommand (commandWord top 0x06 operand) leaveEffect s)

/-- SET_CONDITION: a write to COMMAND with code 07h. -/
def execSetCondition (top : BitVec 7) (operand : Half) (s : State) : Host.Outcome State Fault Refusal :=
  .next (takeCommand (commandWord top 0x07 operand) setConditionEffect s)

/-- FEED: a write to COMMAND with code 08h. -/
def execFeed (top : BitVec 7) (operand : Half) (s : State) : Host.Outcome State Fault Refusal :=
  .next (takeCommand (commandWord top 0x08 operand) feedEffect s)

/-- SET_POINT: a write to COMMAND with code 09h. -/
def execSetPoint (top : BitVec 7) (operand : Half) (s : State) : Host.Outcome State Fault Refusal :=
  .next (takeCommand (commandWord top 0x09 operand) setPointEffect s)

/-- GET_POINT: a write to COMMAND with code 0Ah. -/
def execGetPoint (top : BitVec 7) (operand : Half) (s : State) : Host.Outcome State Fault Refusal :=
  .next (takeCommand (commandWord top 0x0A operand) getPointEffect s)

/-- READ_SLOT: a write to COMMAND with code 13h. -/
def execReadSlot (top : BitVec 7) (operand : Half) (s : State) : Host.Outcome State Fault Refusal :=
  .next (takeCommand (commandWord top 0x13 operand) readSlotEffect s)

/-- READ_COUNTERS: a write to COMMAND with code 1Ch. -/
def execReadCounters (top : BitVec 7) (operand : Half) (s : State) : Host.Outcome State Fault Refusal :=
  .next (takeCommand (commandWord top 0x1C operand) readCountersEffect s)

end Sys2Proof.Machine
end

