-- ==== Sys2Proof/Machine/HostLink.lean ====
section
/-! DEFINITION. The host link (chapter 10): TAKE_EVENT, writes to the window by their words, reads, SPI framing, completion, reset and the pins
RESETN and TRIG. -/

namespace Sys2Proof.Machine

/-! ### TAKE_EVENT (R169) -/

/-- The four words of an event record taken (R169). -/
def eventWords (e : EventRecord) (lost : Byte) (left : Nat) : List Word :=
  [pack4 e.kind.code e.code e.subject e.detail, e.value, e.stamp.setWidth 32, pack4 lost.toNat 0 0 left]

/-- TAKE_EVENT (R169): the lost count is returned and cleared, and EMPTY returns words too. -/
def takeEventEffect (_ : List Word) (s : State) : Reply :=
  match s.host.events with
  | [] => ⟨s.modHost fun h => { h with lostEvents := 0 }, .empty, [0, 0, 0, pack4 s.host.lostEvents.toNat 0 0 0]⟩
  | e :: rest =>
    ⟨s.modHost fun h => { h with events := rest, lostEvents := 0 }, .ok, eventWords e s.host.lostEvents rest.length⟩

/-! ### A word written to COMMAND, by its code (R164 to R166, R172) -/

/-- A code that names no command completes with BAD_ARGUMENT (R165). -/
def unknownEffect (_ : List Word) (s : State) : Reply := Reply.only .badArgument s

/-- The effect a command code names (section 10.4), RESET apart. -/
def effectOf : Nat → List Word → State → Reply
  | 0x02 => configureEffect
  | 0x03 => definePointEffect
  | 0x04 => clearCatalogueEffect
  | 0x05 => joinEffect
  | 0x06 => leaveEffect
  | 0x07 => setConditionEffect
  | 0x08 => feedEffect
  | 0x09 => setPointEffect
  | 0x0A => getPointEffect
  | 0x0B => subscribeEffect
  | 0x0C => unsubscribeEffect
  | 0x0D => readImageEffect
  | 0x0E => setWatchEffect
  | 0x0F => clearWatchEffect
  | 0x10 => readPeerEffect
  | 0x11 => readShapeEffect
  | 0x12 => refreshPeerEffect
  | 0x13 => readSlotEffect
  | 0x14 => sendRequestEffect
  | 0x15 => takeResultEffect
  | 0x16 => cancelRequestEffect
  | 0x17 => setSnapshotEffect
  | 0x18 => fireSnapshotEffect
  | 0x19 => rearmSnapshotEffect
  | 0x1A => readSnapshotEffect
  | 0x1B => takeEventEffect
  | 0x1C => readCountersEffect
  | _ => unknownEffect

/-- A word written to COMMAND: discarded with bit 31 set, a reset with code 01h, any other command otherwise. -/
def writeCommand (word : Word) (s : State) : State :=
  if word.msb then s
  else if commandWordCode word = 1 then takeReset word s
  else takeCommand word (effectOf (commandWordCode word).toNat) s

/-! ### The window (R163, R164) -/

/-- Writes ARG word `k`; not while a reset runs or RESETN is held low (R172, R173). -/
def writeArg (k : Nat) (word : Word) (s : State) : State :=
  if s.host.resetting = .idle then s.modHost fun h => { h with args := h.args.set k word } else s

/-- A word written to a window address: COMMAND, an ARG word, or an address that ignores it (R163, R164). -/
def writeWindow (address : BitVec 7) (word : Word) (s : State) : State :=
  if address = 0 then writeCommand word s
  else if 3 ≤ address.toNat ∧ address.toNat ≤ 10 then writeArg (address.toNat - 3) word s
  else s

/-- What COMMAND reads: the running command's word, the reset's, or 0 (R164, R165, R172, R173). -/
def HostLink.commandRead (h : HostLink) : Word :=
  match h.resetting with
  | .running word => word
  | .held => 0
  | .idle =>
    match h.running with
    | some c => c.word
    | none => 0

/-- What a window address reads, STATUS as it stands (R163, R164, R167). -/
def State.windowRead (s : State) (address : BitVec 7) : Word :=
  if address = 0 then s.host.commandRead
  else if address = 1 then s.host.result
  else if address = 2 then s.statusWord
  else if 3 ≤ address.toNat ∧ address.toNat ≤ 10 then s.host.args.getD (address.toNat - 3) 0
  else 0

/-! ### SPI framing (R163, log 18) -/

/-- Bits taken most significant first. -/
def bitsToWord (bits : List Bool) : Nat := bits.foldl (fun n b => 2 * n + bit b) 0

/-- The whole 32-bit words among bits; a word cut short is dropped. -/
def wholeWords : Nat → List Bool → List Word
  | 0, _ => []
  | n + 1, bits => BitVec.ofNat 32 (bitsToWord (bits.take 32)) :: wholeWords n (bits.drop 32)

/-- The commands that words written from an address on make; the address adds 1 after each word, from 7Fh to 00h. -/
def writesFrom : BitVec 7 → List Word → List Instr
  | _, [] => []
  | address, word :: rest => Instr.windowWrite address word :: writesFrom (address + 1) rest

/-- The addresses whose words a read has begun, each sampled at the start of its first bit. -/
def readsFrom : Nat → BitVec 7 → List (BitVec 7)
  | 0, _ => []
  | n + 1, address => address :: readsFrom n (address + 1)

/-- The commands of one SPI transaction, from SCSN low to SCSN high, by the bits clocked on SDI: a write makes one window
write for each whole word, a read samples each word at the start of its first bit, whether or not it is clocked out whole, and
nothing else. Bits after the address byte number 32 for each word, the last of a read perhaps begun only. -/
def spiTransaction (bits : List Bool) : List Instr :=
  let body := bits.drop 8
  let address := BitVec.ofNat 7 (bitsToWord ((bits.take 8).drop 1))
  if bits.length < 8 then []
  else if bits.headD false then writesFrom address (wholeWords (body.length / 32) body)
  else (readsFrom ((body.length + 31) / 32) address).map fun a => Instr.statusRead a

/-! ### The meanings -/

/-- TAKE_EVENT: a write to COMMAND with code 1Bh. -/
def execTakeEvent (top : BitVec 7) (operand : Half) (s : State) : Host.Outcome State Fault Refusal :=
  .next (takeCommand (commandWord top 0x1B operand) takeEventEffect s)

/-- RESET: a write to COMMAND with code 01h (R172). -/
def execReset (top : BitVec 7) (operand : Half) (s : State) : Host.Outcome State Fault Refusal :=
  .next (takeReset (commandWord top 0x01 operand) s)

/-- UNKNOWN_COMMAND_CODE (R165): a code of the table has its command's effect instead (log 13). -/
def execUnknownCommandCode (top : BitVec 7) (code : Byte) (operand : Half) (s : State) : Host.Outcome State Fault Refusal :=
  .next (writeCommand (commandWord top code operand) s)

/-- COMMAND_WRITE_REFUSED (R166, R172, R173): a word that is not refused has its own effect instead (log 13). -/
def execCommandWriteRefused (word : Word) (s : State) : Host.Outcome State Fault Refusal :=
  .next (writeCommand word s)

/-- COMMAND_COMPLETION (R165). -/
def execCommandCompletion (s : State) : Host.Outcome State Fault Refusal :=
  match s.host.resetting, s.host.running with
  | .idle, some c => .next (s.modHost fun h => completeCommand h c)
  | _, _ => .next s

/-- RESET_COMPLETE (R172, R173). -/
def execResetComplete (s : State) : Host.Outcome State Fault Refusal :=
  match s.host.resetting with
  | .running _ => .next (completeReset s)
  | .idle => .next s
  | .held => .next s

/-- A word of the window is sampled for a read and will be shifted out; at STATUS the refused flag is cleared (R163, R166). The moment
before is over then (log 2). -/
def sampleWord (address : BitVec 7) (s : State) : State :=
  let s := settle s
  s.modHost fun h =>
    { h with shiftOut := s.windowRead address, refused := if address = 2 then false else h.refused }

/-- STATUS_READ (R163, R166, R167); while RESETN is held low no transaction is taken (R173). -/
def execStatusRead (s : State) (address : BitVec 7 := 2) : Host.Outcome State Fault Refusal :=
  if s.host.resetting = .held then .next s else .next (sampleWord address s)

/-- WINDOW_WRITE (R163, R164). -/
def execWindowWrite (address : BitVec 7) (word : Word) (s : State) : Host.Outcome State Fault Refusal :=
  if s.host.resetting = .held then .next s else .next (writeWindow address word s)

/-- RESETN_ASSERT (R173): the controller is held in reset. -/
def execResetnAssert (s : State) : Host.Outcome State Fault Refusal :=
  .next (resetState .held s)

/-- RESETN_RELEASE (R173): the reset state is taken and the reset runs until it completes. -/
def execResetnRelease (s : State) : Host.Outcome State Fault Refusal :=
  if s.host.resetting = .held then .next (resetState (.running resetnWord) s) else .next s

/-- A trigger of PIN with the edge to a level (R149). -/
def pinTriggered (level : Bool) (x : SnapshotUnit) : Bool := x.trigger == .pin level

/-- A change of TRIG's level that the controller follows triggers the PIN units of that edge, together (R149, R152). -/
def followEdge (level : Bool) (s : State) : State :=
  finish (takeCall (giveTriggers (pinTriggered level s.unitA) (pinTriggered level s.unitB)
    { s with trig := { s.trig with followed := level } }))

/-- TRIG takes a level; the moment before is over then (log 2). -/
def setPin (level : Bool) (s : State) : State :=
  let s := settle s
  { s with trig := { s.trig with pin := level } }

/-- TRIG_EDGE (R149): TRIG takes a level; the same level is no edge. -/
def execTrigEdge (level : Bool) (s : State) : Host.Outcome State Fault Refusal :=
  if s.trig.pin = level then .next s else .next (whenLive (followEdge level) (setPin level s))

end Sys2Proof.Machine
end

