-- ==== Sys2Proof/Machine/SlotTime.lean ====
section
/-! DEFINITION. The commands of slot time (chapters 1 to 3, 5, 6, 8 and 9): the silence limit, the start of a slot, the round boundary and
each block's reaction to it, the giving out of discovery places, and the controller's own time on an empty queue. -/

namespace Sys2Proof.Machine

/-- SILENCE_LIMIT (R27). Nothing happens when no slot that has ended has reached the limit (log 3). -/
def execSilenceLimit (s : State) : Host.Outcome State Fault Refusal := .next (whenLive (fun s => finish (takeSilence s)) s)

/-- ROUND_BOUNDARY (R16, R28): the silence limit of the slot that ended is taken before it. -/
def execRoundBoundary (s : State) : Host.Outcome State Fault Refusal := .next (whenLive (fun s => finish (takeSlotEnd s)) s)

/-- The start of a slot, when it is due: the boundary at which it starts, and the end of the listening phase there, come
before it (R28, R47). -/
def startSlot (s : State) : State := if s.due.start then takeStart (takeListen (takeSlotEnd s)) else s

/-- START_OF_SLOT (R19, R20). -/
def execStartOfSlot (s : State) : Host.Outcome State Fault Refusal := .next (whenLive (fun s => finish (startSlot s)) s)

/-- LISTEN_END (R47): the listening count's reaction to a boundary. -/
def execListenEnd (s : State) : Host.Outcome State Fault Refusal := .next (whenLive (fun s => finish (takeListen s)) s)

/-- LEAVING_LIMIT (R51): the leaving count's reaction to a boundary. -/
def execLeavingLimit (s : State) : Host.Outcome State Fault Refusal := .next (whenLive (fun s => finish (takeLeaving s)) s)

/-- HOST_LOST (R55): the host-loss timer's reaction to a boundary. -/
def execHostLost (s : State) : Host.Outcome State Fault Refusal := .next (whenLive (fun s => finish (takeHost s)) s)

/-- STALE_AGE (R108): the image unit's reaction to a boundary. -/
def execStaleAge (s : State) : Host.Outcome State Fault Refusal := .next (whenLive (fun s => finish (takeAges s)) s)

/-- ANSWER_WAIT_EXPIRY (R137): the request unit's reaction to a boundary. -/
def execAnswerWaitExpiry (s : State) : Host.Outcome State Fault Refusal := .next (whenLive (fun s => finish (takeWaits s)) s)

/-- ROUND_TRIGGER (R149): the period counts' reaction to a boundary. -/
def execRoundTrigger (s : State) : Host.Outcome State Fault Refusal := .next (whenLive (fun s => finish (takePeriods s)) s)

/-- DEADLINE_PASSED (R156): the deadline counts' reaction to a boundary. -/
def execDeadlinePassed (s : State) : Host.Outcome State Fault Refusal := .next (whenLive (fun s => finish (takeDeadline s)) s)

/-- DISCOVERY_ENTRY (R91). -/
def execDiscoveryEntry (s : State) : Host.Outcome State Fault Refusal := .next (whenLive giveDiscovery s)

/-! ### The controller's own time (log 1) -/

/-- What the controller does by itself when no command waits: what is due, or one bit time in which no other station drives the line, so that
RXD shows the level on TXD (R1, R16). -/
def ownTime (s : State) : State := if s.hasDue || s.discoveryDue then passMoment s else bitTime s.txd s

end Sys2Proof.Machine
end

