-- ==== Sys2Proof/Machine/Dispatch.lean ====
section
/-! DEFINITION. Each command's meaning: one arm for each row of the table. -/

namespace Sys2Proof.Machine

def exec (i : Instr) (s : State) : Host.Outcome State Fault Refusal :=
  match i with
  | .reset top operand => Sys2Proof.Machine.execReset top operand s
  | .configure top operand => Sys2Proof.Machine.execConfigure top operand s
  | .definePoint top operand => Sys2Proof.Machine.execDefinePoint top operand s
  | .clearCatalogue top operand => Sys2Proof.Machine.execClearCatalogue top operand s
  | .join top operand => Sys2Proof.Machine.execJoin top operand s
  | .leave top operand => Sys2Proof.Machine.execLeave top operand s
  | .setCondition top operand => Sys2Proof.Machine.execSetCondition top operand s
  | .feed top operand => Sys2Proof.Machine.execFeed top operand s
  | .setPoint top operand => Sys2Proof.Machine.execSetPoint top operand s
  | .getPoint top operand => Sys2Proof.Machine.execGetPoint top operand s
  | .subscribe top operand => Sys2Proof.Machine.execSubscribe top operand s
  | .unsubscribe top operand => Sys2Proof.Machine.execUnsubscribe top operand s
  | .readImage top operand => Sys2Proof.Machine.execReadImage top operand s
  | .setWatch top operand => Sys2Proof.Machine.execSetWatch top operand s
  | .clearWatch top operand => Sys2Proof.Machine.execClearWatch top operand s
  | .readPeer top operand => Sys2Proof.Machine.execReadPeer top operand s
  | .readShape top operand => Sys2Proof.Machine.execReadShape top operand s
  | .refreshPeer top operand => Sys2Proof.Machine.execRefreshPeer top operand s
  | .readSlot top operand => Sys2Proof.Machine.execReadSlot top operand s
  | .sendRequest top operand => Sys2Proof.Machine.execSendRequest top operand s
  | .takeResult top operand => Sys2Proof.Machine.execTakeResult top operand s
  | .cancelRequest top operand => Sys2Proof.Machine.execCancelRequest top operand s
  | .setSnapshot top operand => Sys2Proof.Machine.execSetSnapshot top operand s
  | .fireSnapshot top operand => Sys2Proof.Machine.execFireSnapshot top operand s
  | .rearmSnapshot top operand => Sys2Proof.Machine.execRearmSnapshot top operand s
  | .readSnapshot top operand => Sys2Proof.Machine.execReadSnapshot top operand s
  | .takeEvent top operand => Sys2Proof.Machine.execTakeEvent top operand s
  | .readCounters top operand => Sys2Proof.Machine.execReadCounters top operand s
  | .unknownCommandCode top code operand => Sys2Proof.Machine.execUnknownCommandCode top code operand s
  | .commandWriteRefused word => Sys2Proof.Machine.execCommandWriteRefused word s
  | .commandCompletion => Sys2Proof.Machine.execCommandCompletion s
  | .resetComplete => Sys2Proof.Machine.execResetComplete s
  | .statusRead address => Sys2Proof.Machine.execStatusRead s address
  | .windowWrite address word => Sys2Proof.Machine.execWindowWrite address word s
  | .resetnAssert => Sys2Proof.Machine.execResetnAssert s
  | .resetnRelease => Sys2Proof.Machine.execResetnRelease s
  | .trigEdge level => Sys2Proof.Machine.execTrigEdge level s
  | .startBitTaken before last => Sys2Proof.Machine.execStartBitTaken before s last
  | .arrivalEnd before last => Sys2Proof.Machine.execArrivalEnd before last s
  | .arbitrationLoss before last => Sys2Proof.Machine.execArbitrationLoss before last s
  | .sendPoint before last => Sys2Proof.Machine.execSendPoint s before last
  | .transmissionSent before last => Sys2Proof.Machine.execTransmissionSent s before last
  | .holdBegin before last => Sys2Proof.Machine.execHoldBegin before s last
  | .holdEnd before last => Sys2Proof.Machine.execHoldEnd before s last
  | .endOfSlot before last => Sys2Proof.Machine.execEndOfSlot s before last
  | .silenceLimit => Sys2Proof.Machine.execSilenceLimit s
  | .roundBoundary => Sys2Proof.Machine.execRoundBoundary s
  | .startOfSlot => Sys2Proof.Machine.execStartOfSlot s
  | .listenEnd => Sys2Proof.Machine.execListenEnd s
  | .leavingLimit => Sys2Proof.Machine.execLeavingLimit s
  | .hostLost => Sys2Proof.Machine.execHostLost s
  | .staleAge => Sys2Proof.Machine.execStaleAge s
  | .answerWaitExpiry => Sys2Proof.Machine.execAnswerWaitExpiry s
  | .roundTrigger => Sys2Proof.Machine.execRoundTrigger s
  | .deadlinePassed => Sys2Proof.Machine.execDeadlinePassed s
  | .discoveryEntry => Sys2Proof.Machine.execDiscoveryEntry s

end Sys2Proof.Machine
end

