-- ==== Sys2Proof/Machine/Step.lean ====
section
/-! DEFINITION. The step: the command at the front of the queue, or the controller's own time when none waits. -/

namespace Sys2Proof.Machine

/-- One step (log 1): the front command is taken from the queue and has its effect; on an empty queue the controller's own time
passes, unless it is in reset. -/
def step (s : State) : Host.Outcome State Fault Refusal :=
  match s.pending with
  | [] => .next (whenLive ownTime s)
  | c :: rest => exec c { s with pending := rest }

/-- The state with the command a word spells at the front of its queue; no row of the table has bits, so no word spells one. -/
def State.withFetchWord (s : State) (nbits w : Nat) : State :=
  match decodeTableWord nbits w with
  | some c => { s with pending := c :: s.pending }
  | none => s

end Sys2Proof.Machine
end

