-- ==== Sys2Proof/Safety.lean ====
section
/-! DEFINITION. The terms claims use: what a command answers, what of a state the manual speaks of, and the laws of the controller. -/

namespace Sys2Proof.Machine

/-! ### What a command answers -/

/-- A state without the model's free choices (log 5): everything else in it. -/
def State.visible (s : State) : State :=
  { s with
    order :=
      { lineFirst := false, slotReportFirst := false, mapBeforeValues := false, mapBeforeAnswers := false, reportsFirst := false
        adoptFirst := false, listenFirst := false, leavingFirst := false, hostFirst := false, agesFirst := false
        waitsFirst := false, periodsFirst := false, deadlineFirst := false, holdArrivalFirst := false
        watchFirst := [], offAfter := 0, offImageFirst := false, eventPicks := [] }
    freeCount := 0 }

/-- The command answers a next state that is `t` in everything but the model's free choices. -/
def Gives (c : Instr) (s t : State) : Prop := ∃ u, exec c s = .next u ∧ u.visible = t.visible

/-- The command answers a next state of which `p` holds. -/
def Leads (c : Instr) (s : State) (p : State → Prop) : Prop := ∃ u, exec c s = .next u ∧ p u

/-- No reset is in course (R172, R173). -/
abbrev State.live (s : State) : Prop := s.host.resetting = .idle

/-- A write to COMMAND is taken: no reset is in course and no command runs (R165, R166); and nothing of the moment before is left to be
taken (log 2). -/
abbrev State.ready (s : State) : Prop := s.host.resetting = .idle ∧ s.host.running = none ∧ s.hasDue = false

/-- No event of the step in course waits, as between steps. -/
abbrev State.settled (s : State) : Prop := s.raised = []

/-- Nothing of the present moment is left to be taken, no free discovery place has a peer waiting for it (log 2), and no event waits. -/
abbrev State.quiet (s : State) : Prop :=
  s.host.resetting = .idle ∧ s.raised = [] ∧ s.hasDue = false ∧ s.discoveryDue = false

/-- A quiet state in which the end of the next bit time brings neither the end of the slot nor the send point of a frame. -/
abbrev State.midSlot (s : State) : Prop := s.quiet ∧ s.slotTimeEnds = false

/-- A bit time later, when RXD showed this level and nothing else came about: the measure (R14, R15), the slot timer (R16), and the
collections begun a moment ago (log 22). -/
def State.afterBit (level : Level) (s : State) : State :=
  { s with
    line := s.line.measure level
    slot := if s.ctl.state = .off then s.slot else { s.slot with timer := s.slot.timer + 1 }
    unitA := { s.unitA with begunNow := false }
    unitB := { s.unitB with begunNow := false } }

/-- The receiver after a bit time in which RXD showed this level (R2). -/
def State.heard (level : Level) (s : State) : Receiver :=
  s.line.receiver.hear level s.line.recessiveRun s.line.hold (if s.ctl.state = .off then none else some s.slot.counter)

/-- No hold begins in a bit time of this level (R14). -/
abbrev State.noHold (level : Level) (s : State) : Prop :=
  s.line.hold = true ∨ level = .recessive ∨ (s.line.measure level).dominantRun ≤ 20

/-- One recessive bit time before the end of frame (R2). -/
abbrev Reception.almostEnded (r : Reception) : Prop := r.phase = .gap 11 ∨ r.phase = .broken 11

/-- A command taken from `s` whose effect leaves `t`: RESULT reads 0, COMMAND the word, and the command runs on the ARG
words of `s` to a result and returned words (R165). -/
def State.taken (s : State) (word : Word) (result : ResultCode) (returned : List Word) (t : State) : State :=
  { t with host := { t.host with result := 0, running := some ⟨word, s.host.args, result, returned⟩ } }

/-- An event raised now enters the queue, or is lost (R168). -/
def State.withEvent (kind : EventKind) (code subject detail : Nat) (value : Word) (s : State) : State :=
  { s with host := enterEvent s.host ⟨kind, code, subject, detail, value, s.slot.round⟩ }

/-- The events of one kind, in their order. -/
def ofKind (k : EventKind) (es : List EventRecord) : List EventRecord := es.filter (·.kind == k)

/-- From `s` to `t` events have entered the queue, or were lost (R168), of which `p` holds in the order in which they came, and the host link
has not changed else. -/
def State.takesEvents (s t : State) (p : List EventRecord → Prop) : Prop := ∃ es, t.host = es.foldl enterEvent s.host ∧ p es

/-- An entry after its passage to another state: leaving FRESH it presents its fallback, if it has one (R113), on which its watch is placed,
in the format of the layout held before (R119); outside WAITING, FRESH and STALE it holds no layout (R99), and the zone of a watch without
fallback is UNKNOWN (R121). -/
def ImageEntry.passed (st : EntryState) (e : ImageEntry) : ImageEntry :=
  let serves := st = .waiting ∨ st = .fresh ∨ st = .stale
  let zone (w : Watch) : Zone :=
    match e.fallback, e.layout with
    | none, _ => if serves then w.zone else .unknown
    | some v, some l => if e.state = .fresh then w.place l.format v else w.zone
    | some _, none => w.zone
  { e with
    state := st
    value := if e.state = .fresh then e.fallback.getD e.value else e.value
    layout := if serves then e.layout else none
    watch := e.watch.map fun w => { w with zone := zone w } }

/-- The event of an entry's passage, with the state before it and the value presented after it (R115). -/
def ImageEntry.passage (e : ImageEntry) (i code : Nat) (st : EntryState) (round : Half) : EventRecord :=
  ⟨.entry, code, i, e.state.code, (e.passed st).value, round⟩

/-- WAITING, FRESH or STALE, or FAILED with NO_POINT or NOT_PUBLISHED: the states an absence or a clear of the catalogue ends (R109, R111). -/
abbrev ImageEntry.rests (e : ImageEntry) : Prop :=
  e.state = .waiting ∨ e.state = .fresh ∨ e.state = .stale ∨ e.state = .failed .noPoint ∨ e.state = .failed .notPublished

/-- The entries of which `p` holds pass to a state, each with its event, in order of entry index (R115). -/
def State.passages (s : State) (p : ImageEntry → Bool) (code : Nat) (st : EntryState) : List EventRecord :=
  (List.range s.image.length).filterMap fun i =>
    if p (s.entry i) then some ((s.entry i).passage i code st s.slot.round) else none

/-- The bits a shape takes in the data section: its width when it is PUBLISHED or BOTH, none for an ACCEPTED one (R67, R89). -/
def roomOf (shape : Option Shape) : Nat :=
  match shape with
  | some x => if x.direction = .accepted then 0 else x.width.bits
  | none => 0

/-- The bits that the shapes below an index take: the published bits below a count, the offset of a place (R67, R89). -/
def roomBelow (i : Nat) (shapes : List (Option Shape)) : Nat := ((shapes.take i).map roomOf).sum

/-- The offsets of a catalogue of `c` entries; an entry that is not sent has none (R89). -/
def offsetsBelow (c : Nat) (shapes : List (Option Shape)) : List (Option Nat) :=
  (List.range c).map fun i => if roomOf (shapes.getD i none) = 0 then none else some (roomBelow i shapes)

/-- A RESOLVING entry against a KNOWN catalogue of `c` entries: FAILED with NO_POINT beyond the count and with NOT_PUBLISHED for a point that is
not sent, else WAITING with the point's offset, width and format and age 0 (R103). -/
def ImageEntry.resolved (c : Nat) (shapes : List (Option Shape)) (offsets : List (Option Nat)) (e : ImageEntry) : ImageEntry :=
  if c ≤ e.point then e.passed (.failed .noPoint)
  else
    match shapes.getD e.point none, offsets.getD e.point none with
    | some sh, some offset => { e with state := .waiting, age := 0, layout := some ⟨offset, sh.width, sh.format⟩ }
    | some _, none => e.passed (.failed .notPublished)
    | none, _ => e

/-- The event of a resolution that fails (R103, R115). -/
def ImageEntry.failure (e : ImageEntry) (i : Nat) (st : EntryState) (round : Half) : Option EventRecord :=
  match st with
  | .failed .noPoint => some (e.passage i 6 st round)
  | .failed .notPublished => some (e.passage i 7 st round)
  | _ => none

/-- What entering OFF makes of each block of `s` but the host link, and the events other than STATION's that it raises (R52). Slot unit (R16, R22,
R38), answer queue (R76), peer table (R78), entries, all but the FREE ones RESOLVING with their watches (R112, R113, R121), request list,
whose discovery records go and whose live application records end FAILED with ABORTED, each with its REQUEST event, in list order (R147),
line unit (R21, R52), and snapshot units (R162): none is left COLLECTING or PENDING; a collection in course ends ABORTED, or PARTIAL where
entries pass before the collector reacts, stated where no substitution is watched, whose WATCH could trigger a unit in OFF (R125). -/
def State.entersOff (s t : State) (es : List EventRecord) : Prop :=
  t.ctl = { s.ctl with
      state := .off, listening := 0, leaving := 0, hostLoss := 0
      cond := { s.ctl.cond with leaving := false, hostLost := false } }
    ∧ t.slot = { s.slot with
        timer := 0, counter := 0, starved := false, map := s.slot.map.map fun _ => ⟨.free, false, false, false⟩ }
    ∧ t.pub = { s.pub with answers := [] }
    ∧ t.peers = s.peers.map (fun _ => PeerRecord.reset)
    ∧ (∀ i, let e := s.entry i
        let a := t.entry i
        (e.state = .free ∨ e.state = .resolving → a = e)
          ∧ (e.state ≠ .free → e.state ≠ .resolving → a = e.passed .resolving))
    ∧ ofKind .entry es = []
    ∧ ((s.req.list.map (·.id)).Nodup →
        let kept := s.req.list.filter fun r => r.origin == .application
        let live (r : RequestRecord) : Bool := r.state == .waiting || r.state == .sent
        t.req.list
            = (kept.map fun r =>
                if live r then { r with state := .failed, outcome := some .aborted, content := .nothing } else r)
          ∧ ofKind .request es = (kept.filter live).map fun r => ⟨.request, 8, r.tag, r.target, 0, s.slot.round⟩)
    ∧ t.req.tagCounter = s.req.tagCounter ∧ t.req.lateAnswers = s.req.lateAnswers
    ∧ t.line = { s.line with
        tx := (s.line.tx.filter fun x => x.phase ≠ .assembled).map fun x => { x with offSince := true }
        lost := [] }
    ∧ t.trig = s.trig ∧ t.due = Due.none
    ∧ (¬(s.unitA.state = .collecting ∧ s.unitB.state = .collecting) →
        ∀ u : UnitId, (t.unit u).state ≠ .collecting ∧ (t.unit u).state ≠ .pending)
    ∧ (s.called = 0 → s.due.periods = false → (∀ e ∈ s.image, e.state = .fresh → e.fallback = none ∨ e.watch = none) →
        ∀ u : UnitId, (s.unit u.other).state ≠ .collecting →
          let x := s.unit u
          let aborted : SnapshotUnit :=
            { x with
              state := .armed, summary := .aborted, deadlineDue := false
              places := x.places.map fun p =>
                if p.status = .pending then { p with status := .missing, value := 0, stamp := s.slot.round } else p }
          let event (code : Nat) : EventRecord :=
            ⟨.snapshot, code, u.code, x.captured, BitVec.ofNat 32 (x.places.length - x.captured), s.slot.round⟩
          (x.state = .collecting → (∃ p ∈ x.places, p.status = .pending) → (s.unit u.other).state ≠ .pending →
              (t.unit u = aborted ∧ event 3 ∈ es)
                ∨ (t.unit u = { aborted with state := if x.oneShot then .spent else .armed, summary := .incomplete }
                    ∧ event 2 ∈ es))
            ∧ (x.state = .off ∨ x.state = .armed ∨ x.state = .spent → t.unit u = x))

/-- A feed of the host-loss timer (R56): nothing in OFF; in any other state the count is 0, and a set HOST_LOST is cleared with
STATION HOST_RESTORED. -/
def State.fed (s : State) : State :=
  if s.ctl.state = .off then s
  else if s.ctl.cond.hostLost then
    { s with
      ctl := { s.ctl with hostLoss := 0, cond := { s.ctl.cond with hostLost := false } } }.withEvent
        .station 3 s.ctl.config.station 0 0
  else { s with ctl := { s.ctl with hostLoss := 0 } }

/-- The argument words as they stand. -/
def State.argWord (s : State) (k : Nat) : Word := arg s.host.args k
def State.argNat (s : State) (k : Nat) : Nat := argN s.host.args k

/-- Neither unit is COLLECTING. -/
abbrev State.collectorFree (s : State) : Prop := s.unitA.state ≠ .collecting ∧ s.unitB.state ≠ .collecting

/-- A run of the machine never stops: every step answers a next state. -/
def Safe (s : State) : Prop := ∃ t, step s = .next t

/-! ### Frames a station may send (R5, R6, R10) -/

/-- The content that R6's table pairs with a kind and an outcome, within its ranges. -/
def Content.wellFormed (kind : RequestKind) (outcome : AnswerOutcome) : Content → Prop
  | .descriptor d =>
    kind = .readEntry ∧ outcome = .ok ∧ ¬(d.width = .w1 ∧ d.format = .signed) ∧ d.name.length ≤ 8 ∧ d.unit.length ≤ 4
  | .count n => kind = .readEntry ∧ outcome = .catalogueEnd ∧ n ≤ 32
  | .value _ => (kind = .readPoint ∧ outcome = .ok) ∨ (kind = .writePoint ∧ (outcome = .ok ∨ outcome = .outOfRange))
  | .nothing => (kind = .readPoint ∧ outcome = .noPoint) ∨ (kind = .writePoint ∧ (outcome = .noPoint ∨ outcome = .notAccepted))

/-- A request section within its ranges; a value is carried exactly for WRITE_POINT. -/
def RequestSection.wellFormed (r : RequestSection) : Prop :=
  r.tag ≤ 15 ∧ r.target ≤ 32 ∧ r.index ≤ 31 ∧ (r.value.isSome = true ↔ r.kind = .writePoint)

/-- An answer section within its ranges. -/
def AnswerSection.wellFormed (a : AnswerSection) : Prop :=
  a.tag ≤ 15 ∧ 1 ≤ a.requester ∧ a.requester ≤ 32 ∧ a.index ≤ 31 ∧ a.content.wellFormed a.kind a.outcome

/-- A frame that a station of the same plan may send. -/
def Frame.wellFormed (c : Configuration) (f : Frame) : Prop :=
  1 ≤ f.source ∧ f.source ≤ 32 ∧ f.slot < c.slots ∧ f.plan = c.planMark ∧ f.data.length ≤ 48
    ∧ (f.kind = .claimFrame → f.request = none ∧ f.answer = none ∧ f.data = [])
    ∧ (∀ r, f.request = some r → r.wellFormed) ∧ ∀ a, f.answer = some a → a.wellFormed

/-! ### The laws of the controller -/

/-- Ranges of the configuration block (R43). -/
def Configuration.inRange (c : Configuration) : Prop :=
  c.station ≤ 32 ∧ 8 ≤ c.slots ∧ c.slots ≤ 64 ∧ c.rate ≤ 3 ∧ c.want ≤ 4 ∧ c.timeout ≤ 255

/-- The tables have the sizes the manual gives them, the slot counter lies below SLOTS (R16, R22, R43, R78, R99, R164). -/
def State.SizesLaw (s : State) : Prop :=
  s.ctl.config.inRange ∧ s.slot.map.length = s.ctl.config.slots ∧ s.slot.counter < s.ctl.config.slots
    ∧ s.peers.length = 32 ∧ s.image.length = 128 ∧ s.host.args.length = 8
    ∧ (∀ c, s.host.running = some c → c.returned.length ≤ 8)
    ∧ (s.ctl.state = .off → s.slot.counter = 0)

/-- OWNED plus CLAIMING records never exceed WANT (R28). -/
def State.OwnershipLaw (s : State) : Prop := s.ownedCount + s.claimingCount ≤ s.ctl.config.want

/-- OWNED records only in MEMBER and LEAVING, which hold at least one; CLAIMING records only in CLAIMING and MEMBER; the
LEAVING flag is set exactly in LEAVING (R36, R48, R50, R51, R53); in OFF no LOST report waits, and a frame still being sent will give none
(R21, R52). -/
def State.StationLaw (s : State) : Prop :=
  (0 < s.ownedCount ↔ s.ctl.state = .member ∨ s.ctl.state = .leaving)
    ∧ (0 < s.claimingCount → s.ctl.state = .claiming ∨ s.ctl.state = .member)
    ∧ (s.ctl.cond.leaving = true ↔ s.ctl.state = .leaving)
    ∧ (s.ctl.state = .off → s.line.lost = [] ∧ ∀ x, s.line.tx = some x → x.phase ≠ .assembled ∧ x.offSince = true)

/-- At most 32 event records, and no event outside the queue between steps (R168). -/
def State.EventsLaw (s : State) : Prop := s.host.events.length ≤ 32 ∧ s.raised = []

/-- The key of an answer (R69). -/
def Answer.key (a : Answer) : Nat × Nat × RequestKind × Nat := (a.requester, a.tag, a.kind, a.index)

/-- At most 4 answers, no two with the same requester, tag, kind and index (R74). -/
def State.AnswersLaw (s : State) : Prop := s.pub.answers.length ≤ 4 ∧ (s.pub.answers.map Answer.key).Nodup

/-- Attempts by state: a WAITING record can still be sent, a SENT one has been, none passes 3 (R137). -/
def RequestRecord.attemptsOk (r : RequestRecord) : Prop :=
  match r.state with
  | .waiting => r.attempts ≤ 2
  | .sent => 1 ≤ r.attempts ∧ r.attempts ≤ 3
  | .answered => r.attempts ≤ 3
  | .failed => r.attempts ≤ 3

/-- At most 8 records, at most 4 of them discovery records, no two with one tag, attempts in their bounds (R129, R137); and
the numbers the model knows records by are distinct and used once, a predecessor's among them (log 21). -/
def State.RequestsLaw (s : State) : Prop :=
  s.req.list.length ≤ 8 ∧ s.req.discoveryCount ≤ 4 ∧ (s.req.list.map (·.tag)).Nodup
    ∧ (∀ r ∈ s.req.list, r.attemptsOk) ∧ (s.req.list.map (·.id)).Nodup
    ∧ ∀ r ∈ s.req.list, r.id < s.serial ∧ ∀ p, r.predecessor = some p → p < s.serial

/-- At most one unit is COLLECTING, and a unit is PENDING only while the other is COLLECTING (R152). -/
def State.CollectorLaw (s : State) : Prop :=
  ¬(s.unitA.state = .collecting ∧ s.unitB.state = .collecting)
    ∧ (s.unitA.state = .pending → s.unitB.state = .collecting)
    ∧ (s.unitB.state = .pending → s.unitA.state = .collecting)

/-- While a medium hold is in force no frame is held or sent, TXE is off, and no arrival is in progress (R14, R15). -/
def State.HoldLaw (s : State) : Prop := s.line.hold = true → s.line.tx = none ∧ s.line.receiver = .waiting

/-- The slot records HEARD by a station. -/
def State.heardBy (s : State) (n : Nat) : Nat := s.slot.map.countP fun r => r.state.owner? == some n

/-- Heard slots are the slot records HEARD by the peer, and a peer is PRESENT exactly when there is one (R80); in OFF the
slot map and the peer table stand at their reset values, with no slot's end left to be judged (R22, R38, R78). -/
def State.PresenceLaw (s : State) : Prop :=
  s.peers.length = 32
    ∧ (∀ n, 1 ≤ n → n ≤ 32 → n ≠ s.ctl.config.station →
        (s.peer n).heardSlots = s.heardBy n ∧ ((s.peer n).presence = .present ↔ 0 < s.heardBy n))
    ∧ (1 ≤ s.ctl.config.station → (s.peer s.ctl.config.station).presence ≠ .present)
    ∧ (∀ r ∈ s.slot.map, ∀ n, r.state.owner? = some n → 1 ≤ n ∧ n ≤ 32 ∧ n ≠ s.ctl.config.station)
    ∧ (s.ctl.state = .off →
        (∀ r ∈ s.slot.map, r = SlotRecord.reset) ∧ (∀ p ∈ s.peers, p = PeerRecord.reset)
          ∧ s.due = Due.none)

/-- A WAITING, FRESH or STALE entry has a PRESENT source with a KNOWN catalogue and holds a layout, and a FRESH entry's age is
below its stale limit (R99, R113). -/
def State.ImageLaw (s : State) : Prop :=
  s.image.length = 128
    ∧ ∀ e ∈ s.image,
        (e.state ≠ .free → 1 ≤ e.staleLimit ∧ e.staleLimit ≤ 15 ∧ 1 ≤ e.source ∧ e.source ≤ 32)
          ∧ (e.state.served = true →
              e.layout.isSome = true ∧ (s.peer e.source).presence = .present ∧ (s.peer e.source).catalogue = .known)
          ∧ (e.state = .fresh → e.age < e.staleLimit)

/-- A record has 32 places for shapes, and one whose catalogue is KNOWN holds its count, a shape for every place below it and the offset of each
that is sent (R89). -/
def PeerRecord.complete (p : PeerRecord) : Prop :=
  p.shapes.length = 32
    ∧ (p.catalogue = .known →
        ∃ c l, p.count = some c ∧ p.layout = some l
          ∧ ∀ i, i < c →
              ∃ sh, p.shapes.getD i none = some sh ∧ (l.offsets.getD i none = none ↔ sh.direction = .accepted))

/-- Every peer record is complete. -/
def State.CatalogueLaw (s : State) : Prop := ∀ p ∈ s.peers, p.complete

end Sys2Proof.Machine
end

