-- ==== Sys2Proof/Certificates/Slice0/Obligations.lean ====
section
/-! DEFINITION. The statements for the provers. `Gives c s t`: the command answers a next state that is `t` in everything but the model's free
choices (log 5); `s.taken w r ws t`: the command unit has taken the word `w`, the effect leaves `t`, and the command will
complete with `r` and return `ws`. Where a statement names `order` or `due`, it names the model's own fields. -/

open Sys2Proof Sys2Proof.Machine

/-! ### The queue and the controller's own time -/

/-- The step takes the command at the front of the queue (log 1); every command answers a next state, and none touches the queue it came
from: the manual names no condition that stops the controller (INVENTORY.md, Faults). -/
def Obligations.StepTakesTheFrontCommandAndNeverStops : Prop :=
  (∀ (c : Instr) (rest : List Instr) (s : State),
    step { s with pending := c :: rest } = exec c { s with pending := rest })
    ∧ ((∀ s : State, Safe s)
    ∧ (∀ (c : Instr) (s t : State), exec c s = .next t → t.pending = s.pending))

/-- On an empty queue with nothing due one bit time passes, in which RXD shows what this station drives: with no frame and a receiver that
waits the line is recessive, its run measured, and the slot timer takes one step, except in OFF (R16); a frame being sent goes on by one bit
time, and its levels reach the receiver as the line's (R2; that an empty queue lets time pass, and that nobody else drives the line then, is
the model's choice, log 1). -/
def Obligations.OwnTimeLetsOneBitTimePass : Prop :=
  ∀ s : State, s.pending = [] → s.midSlot → s.line.hold = false → (s.heard s.txd).ended = false →
    (s.txeOn = false →
        ∃ t, step s = .next t
          ∧ t.visible
              = { s.afterBit .recessive with line := { s.line.measure .recessive with receiver := s.heard .recessive } }.visible)
      ∧ ∀ (x : Transmission) (k : Nat), s.line.tx = some x → x.phase = .sending k → k + 1 < 10 * x.bytes.length →
          s.noHold x.level →
          ∃ t, step s = .next t
            ∧ t.visible
                = { s.afterBit x.level with
                    line :=
                      { s.line.measure x.level with
                        receiver := s.heard x.level, tx := some { x with phase := .sending (k + 1) } } }.visible

/-! ### Reset -/

/-- The values after reset that the manual gives, both measures of RXD starting afresh (R1, R13, R15, R16, R20, R22, R29, R43, R45, R53,
R59, R74, R77, R78, R99, R127, R128, R140, R148, R164, R167, R168, R170, R172). -/
def Obligations.ResetLeavesTheResetValues : Prop :=
  State.reset.statusWord = 0 ∧ State.reset.attnHigh = true ∧ State.reset.txeOn = false
    ∧ State.reset.windowRead 0 = 0 ∧ State.reset.windowRead 1 = 0x01010000
    ∧ State.reset.host.args = List.replicate 8 0 ∧ State.reset.host.events = [] ∧ State.reset.host.lostEvents = 0
    ∧ State.reset.ctl = ⟨⟨0, 16, 1, 1, 0⟩, .off, 0, 0, 0, ⟨false, false, false⟩⟩
    ∧ State.reset.slot = ⟨0, 0, 0, List.replicate 16 ⟨.free, false, false, false⟩, false, 0⟩
    ∧ State.reset.line.sequence = 0 ∧ State.reset.line.hold = false ∧ State.reset.line.receiver = .waiting
    ∧ State.reset.line.tx = none ∧ State.reset.line.run = 0 ∧ State.reset.txd = .recessive ∧ State.reset.due = Due.none
    ∧ [State.reset.line.good, State.reset.line.badCrc, State.reset.line.format, State.reset.line.planMismatch,
        State.reset.line.arbitrationLosses, State.reset.line.holds, State.reset.pub.dropped, State.reset.pub.notServed,
        State.reset.pub.broadcastIgnored, State.reset.req.lateAnswers] = List.replicate 10 0
    ∧ State.reset.pub.catalogue = [] ∧ State.reset.pub.answers = [] ∧ State.reset.req.list = []
    ∧ State.reset.req.tagCounter = 15
    ∧ State.reset.peers = List.replicate 32
        ⟨.unseen, 0, false, ⟨false, false, false⟩, none, 0, ⟨false, false, false⟩, .unknown, List.replicate 32 none, none, none, 0⟩
    ∧ State.reset.image = List.replicate 128 ⟨.free, 0, 0, 0, 0, 0, 0, none, none, none⟩
    ∧ State.reset.unitA = ⟨.off, [], .nothing, 0, false, false, 1, 0, 0, .nothing, [], 0, false, false, false⟩
    ∧ State.reset.unitB = State.reset.unitA

/-- RESET is taken while a command or a reset runs too: every piece of state takes its reset value, a transmission gives no report, and
COMMAND reads its word; when the reset completes RESULT holds OK, code 01h and operand 0, COMMAND reads 0, and TRIG's level is the starting
level (R172, R173; RESULT reading 0 meanwhile, and what is no state of the controller, log 14). -/
def Obligations.ResetRunsAndCompletes : Prop :=
  (∀ (top : BitVec 7) (operand : Half) (s : State), s.host.resetting ≠ .held →
    Gives (.reset top operand) s
      { State.reset with
        host := { HostLink.reset with result := 0, resetting := .running (commandWord top 1 operand) }
        trig := s.trig
        pending := s.pending })
    ∧ (∀ (s : State) (word : Word), s.host.resetting = .running word →
    Gives .resetComplete s
      { s with
        host := { s.host with result := 0x01010000, resetting := .idle }
        trig := { s.trig with followed := s.trig.pin } })

/-- RESETN low holds the controller in reset, with TXE off, SDO undriven and ATTN high, and no command but the pins' own changes anything
then; RESETN high gives the reset state, and the reset runs; while a reset is in course no block reacts to the line, to TRIG, whose level
alone follows the pin, or to time, and a word written to an ARG word is not written (R172, R173; the state while held is log 15, the reset's
word in COMMAND log 14). -/
def Obligations.ResetnAndTheBlocksDuringReset : Prop :=
  (((∀ s : State, Leads .resetnAssert s fun t =>
    t.host.resetting = .held ∧ t.txeOn = false ∧ t.txd = .recessive ∧ t.attnHigh = true
      ∧ (∀ (low : Bool) (k : Nat), t.sdo low k = none)
      ∧ t.visible = { State.reset with
          host := { HostLink.reset with result := 0, resetting := .held }, trig := s.trig, pending := s.pending }.visible)
    ∧ (∀ s : State, s.host.resetting = .held →
    Gives .resetnRelease s
      { State.reset with
        host := { HostLink.reset with result := 0, resetting := .running 0x00010000 }
        trig := s.trig
        pending := s.pending }))
    ∧ (∀ (c : Instr) (s : State), s.host.resetting = .held → (∀ level, c ≠ .trigEdge level) → c ≠ .resetnAssert →
    c ≠ .resetnRelease → exec c s = .next s))
    ∧ (∀ (s : State) (rxd : List Level) (level : Level), s.host.resetting ≠ .idle →
    ∀ c ∈ [Instr.startBitTaken rxd level, .arrivalEnd rxd level, .arbitrationLoss rxd level, .sendPoint rxd level,
        .transmissionSent rxd level, .holdBegin rxd level, .holdEnd rxd level, .endOfSlot rxd level, .silenceLimit,
        .roundBoundary, .startOfSlot, .listenEnd, .leavingLimit, .hostLost, .staleAge, .answerWaitExpiry, .roundTrigger, .deadlinePassed, .discoveryEntry],
      exec c s = .next s)
    ∧ ∀ s : State, s.host.resetting ≠ .idle →
        (∀ level, exec (.trigEdge level) s = .next { s with trig := { s.trig with pin := level } })
          ∧ ∀ (address : BitVec 7) (word : Word), 3 ≤ address.toNat → address.toNat ≤ 10 →
              exec (.windowWrite address word) s = .next s

/-! ### The host link -/

/-- A write to COMMAND with bit 31 clear and a code other than RESET, while a command or a reset runs, sets the refused flag and changes
nothing else; a code that names no command is taken and completes with BAD_ARGUMENT, with no other effect (R165, R166, R172). Completion:
the returned words go to the first ARG words and the others stay, RESULT holds result code, command code and operand, and COMMAND reads 0
(R164, R165). -/
def Obligations.CommandsAreTakenOneAtATimeAndComplete : Prop :=
  (∀ (s : State) (word : Word), word.msb = false → commandWordCode word ≠ 1 →
    ((∃ w, s.host.resetting = .running w) ∨ (s.host.resetting = .idle ∧ ∃ c, s.host.running = some c)) →
    exec (.commandWriteRefused word) s = .next { s with host := { s.host with refused := true } })
    ∧ (∀ (s : State) (top : BitVec 7) (code : Byte) (operand : Half), s.ready → (code = 0 ∨ 0x1C < code.toNat) →
    Gives (.unknownCommandCode top code operand) s
      (s.taken (commandWord top code operand) .badArgument [] s))
    ∧ ∀ (s : State) (word : Word) (args : List Word) (result : ResultCode) (returned : List Word),
    s.host.resetting = .idle → s.host.running = some ⟨word, args, result, returned⟩ →
    Leads .commandCompletion s fun t =>
      t = { s with
            host :=
              { s.host with
                args := returned ++ s.host.args.drop returned.length
                result := BitVec.ofNat 8 result.code ++ word.extractLsb' 16 8 ++ word.extractLsb' 0 16
                running := none } }
        ∧ t.windowRead 0 = 0

/-- What the present moment left due is taken before a command, a sample of the window or an edge of TRIG, and leaves nothing due: a command
taken then is the command taken from the settled state (R16, R51, R55; that reactions of one moment wait for their rows is the model's form,
log 2). A state with nothing due is settled, also where a peer waits for a free discovery place: the queue says whether the peer or a
command takes it (R91). -/
def Obligations.CommandsComeAfterTheMoment : Prop :=
  (∀ s : State, s.live → (settle s).hasDue = false ∧ (settle s).host.running = s.host.running ∧ (settle s).host.args = s.host.args)
    ∧ (∀ (s : State) (c : Instr) (top : BitVec 7) (operand : Half) (address : BitVec 7), s.live →
    s.host.running = none →
    c ∈ [Instr.configure top operand, .definePoint top operand, .clearCatalogue top operand, .join top operand,
        .leave top operand, .setCondition top operand, .feed top operand, .setPoint top operand, .getPoint top operand,
        .subscribe top operand, .unsubscribe top operand, .readImage top operand, .setWatch top operand,
        .clearWatch top operand, .readPeer top operand, .readShape top operand, .refreshPeer top operand,
        .readSlot top operand, .sendRequest top operand, .takeResult top operand, .cancelRequest top operand,
        .setSnapshot top operand, .fireSnapshot top operand, .rearmSnapshot top operand, .readSnapshot top operand,
        .takeEvent top operand, .readCounters top operand, .statusRead address] →
      exec c s = exec c (settle s))
    ∧ (∀ (s : State) (level : Bool), s.live → s.trig.pin ≠ level → exec (.trigEdge level) s = exec (.trigEdge level) (settle s))
    ∧ ∀ s : State, s.hasDue = false → settle s = s

/-- STATUS shows the state as it stands at the sampling, reads 0 after reset, and reading it changes nothing but the refused flag (R167); a
word of any address is sampled and shifted out most significant bit first, SDO driven only while SCSN is low (R163): COMMAND reads the word
of the command or reset that runs, and 0 with none, RESULT its word (R164, R165, R172). A transaction is an address byte and words, most
significant bit first, the address adding 1 after each; a write is made of whole words only, a read samples a word as soon as it is begun,
and a transaction without a whole address byte is discarded (R163). A word written to 03h..0Ah goes to its ARG word; RESULT, STATUS and
addresses above 0Ah ignore it; a write to COMMAND with bit 31 set is discarded (R163, R164, R165). An event enters the queue at its tail
while it holds fewer than 32 records, and is discarded and counted as lost otherwise, the count saturating at 255 (R168). TAKE_EVENT returns
and removes the oldest record, or completes EMPTY, and returns and clears the lost count (R169). -/
def Obligations.TheWindowIsReadAndWrittenAndEventsTaken : Prop :=
  (State.reset.statusWord = 0
    ∧ ∀ s : State, s.ownedCount ≤ 4 → s.claimingCount ≤ 4 → s.host.events.length ≤ 32 →
        (s.statusWord.extractLsb' 0 3).toNat = s.ctl.state.code
          ∧ (s.statusWord.extractLsb' 4 3).toNat = s.ownedCount
          ∧ (s.statusWord.extractLsb' 8 3).toNat = s.claimingCount
          ∧ (s.statusWord.extractLsb' 16 6).toNat = s.host.events.length
          ∧ s.statusWord.getLsbD 24 = s.ctl.cond.hostLost ∧ s.statusWord.getLsbD 25 = s.line.hold
          ∧ s.statusWord.getLsbD 26 = s.host.refused ∧ s.statusWord.getLsbD 27 = s.ctl.cond.localFault
          ∧ s.statusWord &&& 0xF0C0F888 = 0
          ∧ (s.host.resetting ≠ .held → s.hasDue = false →
              exec (.statusRead 2) s = .next { s with host := { s.host with shiftOut := s.statusWord, refused := false } }))
    ∧ (∀ (s : State) (address : BitVec 7), s.host.resetting ≠ .held → s.hasDue = false → address ≠ 2 →
        exec (.statusRead address) s = .next { s with host := { s.host with shiftOut := s.windowRead address } }
          ∧ (address = 0 →
              (∀ word, s.host.resetting = .running word → s.windowRead address = word)
                ∧ (s.host.resetting = .idle →
                    (∀ c, s.host.running = some c → s.windowRead address = c.word)
                      ∧ (s.host.running = none → s.windowRead address = 0)))
          ∧ (address = 1 → s.windowRead address = s.host.result)
          ∧ (10 < address.toNat → s.windowRead address = 0)
          ∧ ∀ k, 3 ≤ address.toNat → address.toNat = k + 3 → k < 8 → s.windowRead address = s.host.args.getD k 0)
    ∧ (∀ (address : BitVec 7) (words : List Word) (rest : List Bool),
        let addressBits := (List.range 7).map fun j => address.getLsbD (6 - j)
        let wordBits (word : Word) := (List.range 32).map fun j => word.getLsbD (31 - j)
        (rest.length < 8 → spiTransaction rest = [])
          ∧ (rest.length < 32 →
              spiTransaction (true :: addressBits ++ words.flatMap wordBits ++ rest)
                = (List.range words.length).map fun k => .windowWrite (address + BitVec.ofNat 7 k) (words.getD k 0))
          ∧ spiTransaction (false :: addressBits ++ rest)
            = (List.range ((rest.length + 31) / 32)).map fun k => .statusRead (address + BitVec.ofNat 7 k))
    ∧ (∀ (s : State) (k : Nat), s.sdo false k = none
        ∧ (s.host.resetting ≠ .held → s.sdo true k = some (s.host.shiftOut.getLsbD (31 - k))))
    ∧ (∀ (s : State) (address : BitVec 7) (word : Word), s.host.resetting = .idle →
    (3 ≤ address.toNat → address.toNat ≤ 10 →
        exec (.windowWrite address word) s
          = .next { s with host := { s.host with args := s.host.args.set (address.toNat - 3) word } })
      ∧ (address = 1 ∨ address = 2 ∨ 10 < address.toNat → exec (.windowWrite address word) s = .next s)
      ∧ (address = 0 → word.msb = true → exec (.windowWrite address word) s = .next s))
    ∧ (∀ (h : HostLink) (e : EventRecord),
        (h.events.length < 32 → enterEvent h e = { h with events := h.events ++ [e] })
          ∧ (32 ≤ h.events.length → h.lostEvents ≠ 255 → enterEvent h e = { h with lostEvents := h.lostEvents + 1 })
          ∧ (32 ≤ h.events.length → h.lostEvents = 255 → enterEvent h e = h))
    ∧ (∀ (s : State) (top : BitVec 7) (operand : Half), s.ready →
    (∀ e rest, s.host.events = e :: rest →
        Gives (.takeEvent top operand) s
          (s.taken (commandWord top 0x1B operand) .ok
            [pack4 e.kind.code e.code e.subject e.detail, e.value, e.stamp.setWidth 32,
              pack4 s.host.lostEvents.toNat 0 0 rest.length]
            { s with host := { s.host with events := rest, lostEvents := 0 } }))
      ∧ (s.host.events = [] →
          Gives (.takeEvent top operand) s
            (s.taken (commandWord top 0x1B operand) .empty [0, 0, 0, pack4 s.host.lostEvents.toNat 0 0 0]
              { s with host := { s.host with lostEvents := 0 } })))

/-! ### Station control -/

/-- CONFIGURE: WRONG_STATE outside OFF; BAD_ARGUMENT when a field is out of range; otherwise the five fields are replaced together and the
slot map holds SLOTS FREE records (R43, R44, R22). -/
def Obligations.ConfigureReplacesTheBlock : Prop :=
  ∀ (s : State) (top : BitVec 7) (operand : Half), s.ready →
    let c : Configuration := ⟨s.argNat 0, s.argNat 1, s.argNat 2, s.argNat 3, s.argNat 4⟩
    let good := 1 ≤ c.station ∧ c.station ≤ 32 ∧ 8 ≤ c.slots ∧ c.slots ≤ 64 ∧ c.rate ≤ 3 ∧ c.want ≤ 4 ∧ c.timeout ≤ 255
    let w := commandWord top 0x02 operand
    (s.ctl.state ≠ .off → Gives (.configure top operand) s (s.taken w .wrongState [] s))
      ∧ (s.ctl.state = .off → ¬good → Gives (.configure top operand) s (s.taken w .badArgument [] s))
      ∧ (s.ctl.state = .off → good →
          Gives (.configure top operand) s
            (s.taken w .ok []
              { s with
                ctl := { s.ctl with config := c }
                slot := { s.slot with map := List.replicate c.slots ⟨.free, false, false, false⟩ } }))

/-- JOIN's checks in their order, and the state it enters: slot timer 0 in slot 0, counts 0, STATION STATE with cause JOIN (R46, R57, R16).
-/
def Obligations.JoinEntersListeningOrObserver : Prop :=
  ∀ (s : State) (top : BitVec 7) (operand : Half), s.ready → s.settled →
    let w := commandWord top 0x05 operand
    let enter (st : StationState) : State :=
      { s with
        ctl := { s.ctl with state := st, listening := 0, hostLoss := 0 }
        slot := { s.slot with timer := 0, counter := 0 } }.withEvent .station 1 s.ctl.config.station 1 (BitVec.ofNat 32 st.code)
    (s.ctl.state ≠ .off ∨ s.ctl.config.station = 0 → Gives (.join top operand) s (s.taken w .wrongState [] s))
      ∧ (s.ctl.state = .off → s.ctl.config.station ≠ 0 →
          (s.argNat 0 ≠ 1 ∧ s.argNat 0 ≠ 2) ∨ (s.argNat 0 = 1 ∧ s.ctl.config.want = 0) →
          Gives (.join top operand) s (s.taken w .badArgument [] s))
      ∧ (s.ctl.state = .off → s.ctl.config.station ≠ 0 → s.argNat 0 = 1 → s.ctl.config.want ≠ 0 →
          Gives (.join top operand) s (s.taken w .ok [] (enter .listening)))
      ∧ (s.ctl.state = .off → s.ctl.config.station ≠ 0 → s.argNat 0 = 2 →
          Gives (.join top operand) s (s.taken w .ok [] (enter .observer)))

/-- LEAVE: WRONG_STATE in OFF, nothing in LEAVING; a MEMBER with OWNED records enters LEAVING, its CLAIMING records FREE and LEAVING set in
the condition; from LISTENING, OBSERVER and CLAIMING the station is OFF after the command, with one STATION STATE event, LEAVE, or from
CLAIMING with two, LEAVE and then LEAVE_DONE, and every block as entering OFF leaves it (R36, R50, R51, R52, R57, R78, R112, R147, R162). -/
def Obligations.LeaveLeavesTheBus : Prop :=
  ∀ (s : State) (top : BitVec 7) (operand : Half), s.ready → s.settled →
    let w := commandWord top 0x06 operand
    (s.ctl.state = .off → Gives (.leave top operand) s (s.taken w .wrongState [] s))
      ∧ (s.ctl.state = .leaving → Gives (.leave top operand) s (s.taken w .ok [] s))
      ∧ (s.ctl.state = .member → 0 < s.ownedCount →
          Gives (.leave top operand) s
            (s.taken w .ok []
              ({ s with
                  ctl := { s.ctl with state := .leaving, leaving := 0, cond := { s.ctl.cond with leaving := true } }
                  slot :=
                    { s.slot with
                      map := s.slot.map.map fun (r : SlotRecord) =>
                        if r.state.isClaiming then { r with state := .free, ownerHeard := false } else r } }.withEvent
                .station 1 s.ctl.config.station 5 5)))
      ∧ ∀ events : List (Nat × Word),
          (s.ctl.state = .listening ∨ s.ctl.state = .observer) ∧ events = [(5, 0)]
              ∨ s.ctl.state = .claiming ∧ s.ownedCount = 0 ∧ events = [(5, 5), (6, 0)] →
            Leads (.leave top operand) s fun t =>
              t.ctl.state = .off ∧ t.claimingCount = 0
                ∧ ∃ es, t.host = (s.taken w .ok [] { s with host := es.foldl enterEvent s.host }).host
                    ∧ s.entersOff t es
                    ∧ ofKind .station es
                      = events.map fun (cause, state) => ⟨.station, 1, s.ctl.config.station, cause, state, s.slot.round⟩

/-- Entering OFF, whatever the cause: what each block's state becomes, and what is kept (R15, R16, R22, R29, R38, R43, R52, R54, R59, R63,
R76, R77, R78, R128, R140, R147). Each entry that was neither FREE nor RESOLVING is RESOLVING without layout, its fallback presented when it
was FRESH, its age, updates and fallback kept, and its watch with its limits and arm flags, the zone UNKNOWN without a fallback and placed
anew by a substitution (R112, R113, R117, R121). The discovery records are removed, and each application record not ended is FAILED with
ABORTED, with its REQUEST event, in list order; those ended before stay (R147). STATION STATE is raised with the cause (R57). No unit is
left COLLECTING or PENDING: the collector's reaction ends the collection in course ABORTED, its pending places MISSING and its unit ARMED,
and makes a PENDING unit ARMED; where entries pass before it, which R162 allows, a collection whose last place they decide ends PARTIAL
instead (R155, R157, R162; stated where no substitution is watched, whose WATCH could trigger a unit in OFF, R125). -/
def Obligations.EnteringOffLeavesTheBlocksSo : Prop :=
  ∀ (s : State) (cause : Nat),
    let t := enterOff cause s
    (∃ es, t.raised = s.raised ++ es ∧ s.entersOff t es
        ∧ ofKind .station es = [⟨.station, 1, s.ctl.config.station, cause, 0, s.slot.round⟩])
      ∧ t.host = s.host
      ∧ ∀ u : UnitId, s.called = 0 → (s.unit u.other).state ≠ .collecting →
          let x := s.unit u
          let aborted : SnapshotUnit :=
            { x with
              state := .armed, summary := .aborted, deadlineDue := false
              places := x.places.map fun p =>
                if p.status = .pending then { p with status := .missing, value := 0, stamp := s.slot.round } else p }
          let event : EventRecord :=
            ⟨.snapshot, 3, u.code, x.captured, BitVec.ofNat 32 (x.places.length - x.captured), s.slot.round⟩
          let disarm (y : SnapshotUnit) : SnapshotUnit := if y.state = .pending then { y with state := .armed } else y
          x.state = .collecting → (∃ p ∈ x.places, p.status = .pending) →
            collectorOff s
              = { (s.modUnit u fun _ => aborted).modUnit u.other disarm with began := false, raised := s.raised ++ [event] }

/-- SET_CONDITION sets or clears LOCAL_FAULT in every state, another value is refused, and entering OFF keeps the flag (R54); FEED is a feed
of the host-loss timer and completes with OK in every state (R56). -/
def Obligations.SetConditionAndFeed : Prop :=
  ((∀ (s : State) (top : BitVec 7) (operand : Half), s.ready →
    let w := commandWord top 0x07 operand
    (s.argNat 0 = 1 →
        Gives (.setCondition top operand) s
          (s.taken w .ok [] { s with ctl := { s.ctl with cond := { s.ctl.cond with localFault := true } } }))
      ∧ (s.argNat 0 = 0 →
          Gives (.setCondition top operand) s
            (s.taken w .ok [] { s with ctl := { s.ctl with cond := { s.ctl.cond with localFault := false } } }))
      ∧ (2 ≤ s.argNat 0 → Gives (.setCondition top operand) s (s.taken w .badArgument [] s)))
    ∧ ∀ (s : State) (cause : Nat), (enterOff cause s).ctl.cond.localFault = s.ctl.cond.localFault)
    ∧ (∀ (s : State) (top : BitVec 7) (operand : Half), s.ready → s.settled →
    Gives (.feed top operand) s (s.taken (commandWord top 0x08 operand) .ok [] s.fed))

/-! ### The catalogue and the publish table -/

/-- A number fits a width and format exactly when it lies in the range R58's table gives; DEFINE_POINT's descriptor is what its words spell,
within R58's ranges, a FLAGS point with its stored limits (R58, R60). DEFINE_POINT's checks in their order and its effect: the descriptor
added at the end or in place of the one at its index, the value at low with last writer 0 (R60, R61); CLEAR_CATALOGUE empties catalogue and
publish table in OFF, and changes nothing in any other state (R62). -/
def Obligations.CatalogueIsDefinedAndCleared : Prop :=
  ((∀ (w : Width) (v : Word),
    (fits w .unsigned v = true ↔ v.toNat < 2 ^ w.bits) ∧ (fits w .flags v = true ↔ v.toNat < 2 ^ w.bits)
      ∧ (fits w .signed v = true ↔ -(2 ^ (w.bits - 1) : Int) ≤ v.toInt ∧ v.toInt < (2 ^ (w.bits - 1) : Int)))
    ∧ (∀ (args : List Word) (d : Descriptor),
    descriptorOf args = some d ↔
      Width.ofNat? (byteOf (arg args 0) 2).toNat = some d.width
        ∧ Format.ofNat? (byteOf (arg args 0) 1).toNat = some d.format
        ∧ Direction.ofNat? (byteOf (arg args 0) 0).toNat = some d.direction
        ∧ ¬(d.width = .w1 ∧ d.format = .signed)
        ∧ (byteOf (arg args 3) 3).toNat ≤ 8 ∧ (byteOf (arg args 3) 2).toNat ≤ 4
        ∧ d.name = (charsOf [arg args 4, arg args 5]).take (byteOf (arg args 3) 3).toNat
        ∧ d.unit = (charsOf [arg args 6]).take (byteOf (arg args 3) 2).toNat
        ∧ (d.format = .flags → d.low = 0 ∧ d.high = BitVec.ofNat 32 (2 ^ d.width.bits - 1))
        ∧ (d.format ≠ .flags →
            d.low = arg args 1 ∧ d.high = arg args 2 ∧ fits d.width d.format d.low = true
              ∧ fits d.width d.format d.high = true ∧ lessThan d.format d.high d.low = false)))
    ∧ (∀ (s : State) (top : BitVec 7) (operand : Half), s.ready →
    let w := commandWord top 0x03 operand
    let i := (byteOf (s.argWord 0) 3).toNat
    let n := s.pub.catalogue.length
    (s.ctl.state ≠ .off → Gives (.definePoint top operand) s (s.taken w .wrongState [] s))
      ∧ (s.ctl.state = .off → 32 ≤ i ∨ n < i ∨ descriptorOf s.host.args = none →
          Gives (.definePoint top operand) s (s.taken w .badArgument [] s))
      ∧ (∀ d, s.ctl.state = .off → i < 32 → i ≤ n → descriptorOf s.host.args = some d →
          let c : List Point := if i < n then s.pub.catalogue.set i ⟨d, d.low, 0⟩ else s.pub.catalogue ++ [⟨d, d.low, 0⟩]
          (384 < publishedBits c → Gives (.definePoint top operand) s (s.taken w .full [] s))
            ∧ (publishedBits c ≤ 384 →
                Gives (.definePoint top operand) s (s.taken w .ok [] { s with pub := { s.pub with catalogue := c } }))))
    ∧ (publishedBits [] = 0
    ∧ ∀ (s : State) (top : BitVec 7) (operand : Half), s.ready →
        let w := commandWord top 0x04 operand
        (s.ctl.state = .off →
            Gives (.clearCatalogue top operand) s (s.taken w .ok [] { s with pub := { s.pub with catalogue := [] } }))
          ∧ (s.ctl.state ≠ .off → Gives (.clearCatalogue top operand) s (s.taken w .wrongState [] s)))

/-- SET_POINT sets a value that fits and lies within the limits, with last writer 0, and feeds the host-loss timer; any other value or index
is BAD_ARGUMENT and changes nothing (R64, R56). GET_POINT returns the point's value and its last writer, in every state, and feeds nothing
(R65). -/
def Obligations.SetAndGetPoint : Prop :=
  (∀ (s : State) (top : BitVec 7) (operand : Half), s.ready → s.settled →
    let w := commandWord top 0x09 operand
    let i := s.argNat 0
    let v := s.argWord 1
    (s.pub.catalogue.length ≤ i → Gives (.setPoint top operand) s (s.taken w .badArgument [] s))
      ∧ ∀ p, s.pub.catalogue.drop i = p :: s.pub.catalogue.drop (i + 1) →
          let ok := fits p.descriptor.width p.descriptor.format v = true
            ∧ (p.descriptor.format ≠ .flags →
                lessThan p.descriptor.format v p.descriptor.low = false
                  ∧ lessThan p.descriptor.format p.descriptor.high v = false)
          (ok →
              Gives (.setPoint top operand) s
                (s.taken w .ok []
                  { s with
                    pub := { s.pub with catalogue := s.pub.catalogue.set i { p with value := v, writer := 0 } } }.fed))
            ∧ (¬ok → Gives (.setPoint top operand) s (s.taken w .badArgument [] s)))
    ∧ (∀ (s : State) (top : BitVec 7) (operand : Half), s.ready →
    let w := commandWord top 0x0A operand
    (s.pub.catalogue.length ≤ s.argNat 0 → Gives (.getPoint top operand) s (s.taken w .badArgument [] s))
      ∧ ∀ p, s.pub.catalogue.drop (s.argNat 0) = p :: s.pub.catalogue.drop (s.argNat 0 + 1) →
          Gives (.getPoint top operand) s (s.taken w .ok [p.value, BitVec.ofNat 32 p.writer] s))

/-- The data section holds ceil(published bits / 8) bytes, and a subscriber that reads a point at its offset finds the value the publish
table holds (R67, R107). -/
def Obligations.DataSectionCarriesTheValues : Prop :=
  ∀ c : List Point, (dataSection c).length = (publishedBits c + 7) / 8
    ∧ ∀ (before after : List Point) (p : Point), c = before ++ p :: after → p.descriptor.direction.sent = true →
        fits p.descriptor.width p.descriptor.format p.value = true →
        readPoint (dataSection c) ⟨publishedBits before, p.descriptor.width, p.descriptor.format⟩ = p.value

/-! ### The slot map, the image, watches and peers, as the host reads and writes them -/

/-- READ_SLOT returns the record with the slot counter and the round counter, a slot beyond SLOTS being BAD_ARGUMENT (R41); READ_COUNTERS
returns the eleven counters, two to a word (R171). Neither changes anything. -/
def Obligations.ReadSlotAndReadCounters : Prop :=
  (∀ (s : State) (top : BitVec 7) (operand : Half), s.ready →
    let w := commandWord top 0x13 operand
    let r := s.slotAt (s.argNat 0)
    let flags : List Word :=
      [if r.activityThis then 1 else 0, if r.activityLast then 1 else 0, if r.ownerHeard then 1 else 0,
        BitVec.ofNat 32 s.slot.counter, s.slot.round.setWidth 32]
    let own : Word := BitVec.ofNat 32 s.ctl.config.station
    (s.ctl.config.slots ≤ s.argNat 0 → Gives (.readSlot top operand) s (s.taken w .badArgument [] s))
      ∧ (s.argNat 0 < s.ctl.config.slots →
          (r.state = .free → Gives (.readSlot top operand) s (s.taken w .ok ([0, 0, 0] ++ flags) s))
            ∧ (∀ o n, r.state = .heard o n →
                Gives (.readSlot top operand) s (s.taken w .ok ([1, BitVec.ofNat 32 o, BitVec.ofNat 32 n] ++ flags) s))
            ∧ (∀ n, r.state = .claiming n →
                Gives (.readSlot top operand) s (s.taken w .ok ([2, own, BitVec.ofNat 32 n] ++ flags) s))
            ∧ (∀ n, r.state = .owned n →
                Gives (.readSlot top operand) s (s.taken w .ok ([3, own, BitVec.ofNat 32 n] ++ flags) s))))
    ∧ (∀ (s : State) (top : BitVec 7) (operand : Half), s.ready →
    Gives (.readCounters top operand) s
      (s.taken (commandWord top 0x1C operand) .ok
        [s.line.good ++ s.line.badCrc, s.line.format ++ s.line.planMismatch, s.line.arbitrationLosses ++ s.line.holds,
          s.slot.outOfStep ++ s.pub.dropped, s.pub.notServed ++ s.pub.broadcastIgnored, s.req.lateAnswers ++ 0#16] s))

/-- SUBSCRIBE's checks, BUSY for an entry in use, and the entry it makes: RESOLVING for a source that is not PRESENT with a KNOWN catalogue,
WAITING with the point's offset, width and format or FAILED with its ENTRY event where R103 or R104 judge it so (R100, R103, R104).
UNSUBSCRIBE makes an entry FREE with every field at its FREE value, raises no event, and with the collector free changes nothing else (R99,
R101). READ_IMAGE returns the entry in R102's eight words, all 0 for a FREE entry, and changes nothing (R102). -/
def Obligations.EntriesAreSubscribedUnsubscribedAndRead : Prop :=
  (∀ (s : State) (top : BitVec 7) (operand : Half), s.ready → s.settled →
    let w := commandWord top 0x0B operand
    let i := s.argNat 0
    let n := s.argNat 1
    let good := i ≤ 127 ∧ 1 ≤ n ∧ n ≤ 32 ∧ n ≠ s.ctl.config.station ∧ s.argNat 2 ≤ 31 ∧ 1 ≤ s.argNat 3 ∧ s.argNat 3 ≤ 15
      ∧ s.argNat 4 ≤ 1
    let fallback := if s.argNat 4 = 1 then some (s.argWord 5) else none
    let made : ImageEntry :=
      ⟨.resolving, n, s.argNat 2, s.argNat 3, 0, fallback.getD 0, 0, fallback, none, none⟩
    let p := s.peer n
    (¬good → Gives (.subscribe top operand) s (s.taken w .badArgument [] s))
      ∧ (good → (s.entry i).state ≠ .free → Gives (.subscribe top operand) s (s.taken w .busy [] s))
      ∧ (good → i < s.image.length → (s.entry i).state = .free →
          (p.catalogue ≠ .failed → ¬(p.presence = .present ∧ p.catalogue = .known) →
              Gives (.subscribe top operand) s (s.taken w .ok [] { s with image := s.image.set i made }))
            ∧ (p.presence = .present → p.catalogue = .known → s.argNat 2 < p.count.getD 0 →
                ∀ sh l offset, p.shapeAt (s.argNat 2) = some sh → sh.direction ≠ .accepted → p.layout = some l →
                l.offsets.getD (s.argNat 2) none = some offset →
                Gives (.subscribe top operand) s
                  (s.taken w .ok []
                    { s with
                      image := s.image.set i
                        { made with
                          state := .waiting
                          layout := some ⟨offset, sh.width, sh.format⟩ } }))
            ∧ (p.catalogue = .failed → s.collectorFree →
                Gives (.subscribe top operand) s
                  (s.taken w .ok []
                    ({ s with image := s.image.set i { made with state := .failed .noCatalogue } }.withEvent
                      .entry 5 i 1 made.value)))
            ∧ (p.presence = .present → p.catalogue = .known → p.count.getD 0 ≤ s.argNat 2 → s.collectorFree →
                Gives (.subscribe top operand) s
                  (s.taken w .ok []
                    ({ s with image := s.image.set i { made with state := .failed .noPoint } }.withEvent
                      .entry 6 i 1 made.value)))
            ∧ (p.presence = .present → p.catalogue = .known → s.argNat 2 < p.count.getD 0 → s.collectorFree →
                ∀ sh, p.shapeAt (s.argNat 2) = some sh → sh.direction = .accepted →
                Gives (.subscribe top operand) s
                  (s.taken w .ok []
                    ({ s with image := s.image.set i { made with state := .failed .notPublished } }.withEvent
                      .entry 7 i 1 made.value)))))
    ∧ (∀ (s : State) (top : BitVec 7) (operand : Half), s.ready → s.settled →
    let w := commandWord top 0x0C operand
    let i := s.argNat 0
    (127 < i → Gives (.unsubscribe top operand) s (s.taken w .badArgument [] s))
      ∧ (i ≤ 127 → (s.entry i).state = .free → Gives (.unsubscribe top operand) s (s.taken w .notFound [] s))
      ∧ (i ≤ 127 → (s.entry i).state ≠ .free → s.collectorFree →
          Gives (.unsubscribe top operand) s (s.taken w .ok [] { s with image := s.image.set i ImageEntry.free }))
      ∧ (i ≤ 127 → (s.entry i).state ≠ .free →
          Leads (.unsubscribe top operand) s fun t =>
            t.image = s.image.set i ImageEntry.free ∧ t.peers = s.peers ∧ t.req = s.req ∧ t.slot = s.slot
              ∧ t.ctl = s.ctl ∧ t.pub = s.pub ∧ t.line = s.line))
    ∧ (∀ (s : State) (top : BitVec 7) (operand : Half), s.ready →
    let w := commandWord top 0x0D operand
    let e := s.entry (s.argNat 0)
    let reason := match e.state with
      | .failed r => r.code
      | _ => 0
    let watch := match e.watch with
      | some x => x.zone.code
      | none => 0
    let place : Word := match e.layout with
      | some l => BitVec.ofNat 16 l.offset ++ BitVec.ofNat 8 l.width.bits ++ BitVec.ofNat 8 l.format.code
      | none => 65535#16 ++ 0#16
    (127 < s.argNat 0 → Gives (.readImage top operand) s (s.taken w .badArgument [] s))
      ∧ (s.argNat 0 ≤ 127 → e.state = .free →
          Gives (.readImage top operand) s (s.taken w .ok [0, 0, 0, 0, 0, 0, 0, 0] s))
      ∧ (s.argNat 0 ≤ 127 → e.state ≠ .free →
          Gives (.readImage top operand) s
            (s.taken w .ok
              [BitVec.ofNat 16 e.state.code ++ BitVec.ofNat 16 reason, BitVec.ofNat 16 e.source ++ BitVec.ofNat 16 e.point,
                BitVec.ofNat 16 e.staleLimit ++ BitVec.ofNat 16 e.age, e.value, e.updates.setWidth 32,
                (if e.fallback.isSome then 1#16 else 0#16) ++ BitVec.ofNat 16 watch, e.fallback.getD 0, place] s)))

/-- The zone of a value is given by R118's two tests in order; an evaluation takes that zone, and raises WATCH exactly when the zone is new,
armed and not INSIDE out of UNKNOWN; it changes no other entry, and with no unit triggered by the entry nothing else (R118, R119, R120,
R124). The passage of an entry to another state: its zone becomes UNKNOWN outside WAITING, FRESH and STALE where it has no fallback, is
placed anew on the fallback where it leaves FRESH with one, and stays else; its ENTRY event, where it raises one, gives the state before and
the value after (R113, R115, R121). -/
def Obligations.EvaluationTakesTheZoneAndReports : Prop :=
  (∀ (w : Watch) (v : Word),
    (w.place .signed v
        = if v.toInt < w.low.toInt then .below else if w.high.toInt < v.toInt then .above else .inside)
      ∧ ∀ f, f = .unsigned ∨ f = .flags →
          w.place f v = if v.toNat < w.low.toNat then .below else if w.high.toNat < v.toNat then .above else .inside)
    ∧ (∀ (s : State) (i : Nat) (f : Format) (e : ImageEntry) (w : Watch), s.image.drop i = e :: s.image.drop (i + 1) →
    e.watch = some w → s.unitA.trigger ≠ .watch i → s.unitB.trigger ≠ .watch i → s.collectorFree →
    let zone := w.place f e.value
    let armed := (zone = .below ∧ w.enterBelow = true) ∨ (zone = .inside ∧ w.enterInside = true)
      ∨ (zone = .above ∧ w.enterAbove = true)
    let t : State := { s with image := s.image.set i { e with watch := some { w with zone := zone } } }
    (zone ≠ w.zone → armed → ¬(w.zone = .unknown ∧ zone = .inside) →
        evaluateWatch i f s
          = { t with raised := s.raised ++ [⟨.watch, zone.code, i, w.zone.code, e.value, s.slot.round⟩] })
      ∧ (zone = w.zone ∨ ¬armed ∨ (w.zone = .unknown ∧ zone = .inside) → evaluateWatch i f s = t))
    ∧ ∀ (s : State) (i : Nat) (st : EntryState) (event : Option Nat),
        (passEntry i st event s).image = s.image.modify i (·.passed st)
          ∧ ofKind .entry (passEntry i st event s).raised
            = ofKind .entry s.raised
              ++ event.toList.map fun code => (s.entry i).passage i code st s.slot.round

/-- SET_WATCH's checks in their order; on an entry that is not FRESH the watch is there with zone UNKNOWN, on a FRESH entry it has the zone
of the presented value, and its report may change the units only (R122, R125). CLEAR_WATCH removes a watch and nothing else; an entry
without a watch is evaluated by nothing (R123). -/
def Obligations.SetAndClearWatch : Prop :=
  (∀ (s : State) (top : BitVec 7) (operand : Half), s.ready → s.settled →
    let w := commandWord top 0x0E operand
    let i := s.argNat 0
    let e := s.entry i
    let low := s.argWord 1
    let high := s.argWord 2
    let inOrder := match e.layout with
      | some l => lessThan l.format high low = false
      | none => lessThan .signed high low = false ∨ lessThan .unsigned high low = false
    let watch : Watch :=
      ⟨low, high, (s.argWord 3).getLsbD 0, (s.argWord 3).getLsbD 1, (s.argWord 3).getLsbD 2, .unknown⟩
    (127 < i ∨ 7 < s.argNat 3 → Gives (.setWatch top operand) s (s.taken w .badArgument [] s))
      ∧ (i ≤ 127 → s.argNat 3 ≤ 7 → e.state = .free → Gives (.setWatch top operand) s (s.taken w .notFound [] s))
      ∧ (i ≤ 127 → s.argNat 3 ≤ 7 → e.state ≠ .free → ¬inOrder →
          Gives (.setWatch top operand) s (s.taken w .badArgument [] s))
      ∧ (i ≤ 127 → s.argNat 3 ≤ 7 → e.state ≠ .free → inOrder → e.state ≠ .fresh →
          Gives (.setWatch top operand) s (s.taken w .ok [] { s with image := s.image.set i { e with watch := some watch } }))
      ∧ (∀ l, i ≤ 127 → i < s.image.length → s.argNat 3 ≤ 7 → e.state = .fresh → e.layout = some l → inOrder →
          Leads (.setWatch top operand) s fun t =>
            t.image = s.image.set i { e with watch := some { watch with zone := watch.place l.format e.value } }
              ∧ t.host.running.map (·.result) = some .ok ∧ t.line = s.line ∧ t.slot = s.slot ∧ t.ctl = s.ctl ∧ t.pub = s.pub
              ∧ t.peers = s.peers ∧ t.req = s.req ∧ t.due = s.due))
    ∧ ((∀ (s : State) (top : BitVec 7) (operand : Half), s.ready →
    let w := commandWord top 0x0F operand
    let i := s.argNat 0
    let e := s.entry i
    (127 < i → Gives (.clearWatch top operand) s (s.taken w .badArgument [] s))
      ∧ (i ≤ 127 → e.state = .free ∨ e.watch = none → Gives (.clearWatch top operand) s (s.taken w .notFound [] s))
      ∧ (i ≤ 127 → e.state ≠ .free → e.watch ≠ none →
          Gives (.clearWatch top operand) s (s.taken w .ok [] { s with image := s.image.set i { e with watch := none } })))
    ∧ ∀ (s : State) (i : Nat) (f : Format), (s.entry i).watch = none → evaluateWatch i f s = s)

/-- READ_PEER returns the record in R95's eight words and clears its went-absent latch (R95); READ_SHAPE returns a shape learned and its
offset, and changes nothing (R96). REFRESH_PEER returns a FAILED catalogue to FETCHING, keeping what it holds, and its FAILED entries with
NO_CATALOGUE to RESOLVING, with no event; any other catalogue is left alone (R97, R104). -/
def Obligations.PeersAreReadAndRefreshed : Prop :=
  ((∀ (s : State) (top : BitVec 7) (operand : Half), s.ready →
    let w := commandWord top 0x10 operand
    let n := s.argNat 0
    let p := s.peer n
    let mask := ((List.range 32).map fun i => if (p.shapes.getD i none).isSome then 2 ^ i else 0).sum
    (n = 0 ∨ 32 < n → Gives (.readPeer top operand) s (s.taken w .badArgument [] s))
      ∧ (1 ≤ n → n ≤ 32 → n ≠ s.ctl.config.station →
          Gives (.readPeer top operand) s
            (s.taken w .ok
              [BitVec.ofNat 16 p.presence.code ++ (if p.wentAbsent then 1#16 else 0#16),
                (if p.lastCond.hostLost then 1 else 0) + (if p.lastCond.leaving then 2 else 0)
                  + (if p.lastCond.localFault then 4 else 0),
                (match p.lastSequence with
                  | some q => q.setWidth 32
                  | none => 256),
                p.framesMissed.setWidth 16 ++ p.fetchFailures.setWidth 16,
                (if p.faults.planMismatch then 1 else 0) + (if p.faults.layoutMismatch then 2 else 0)
                  + (if p.faults.catalogueConflict then 4 else 0),
                BitVec.ofNat 16 p.catalogue.code ++ BitVec.ofNat 16 (p.count.getD 255),
                BitVec.ofNat 32 ((p.layout.map (·.bits)).getD 0), BitVec.ofNat 32 mask]
              { s with peers := s.peers.modify (n - 1) fun q => { q with wentAbsent := false } }))
      ∧ (1 ≤ n → n ≤ 32 → n = s.ctl.config.station → p = PeerRecord.reset →
          Gives (.readPeer top operand) s (s.taken w .ok [0, 0, 256, 0, 0, 255, 0, 0] s)))
    ∧ (∀ (s : State) (top : BitVec 7) (operand : Half), s.ready →
    let w := commandWord top 0x11 operand
    let n := s.argNat 0
    let p := s.peer n
    (n = 0 ∨ 32 < n ∨ 31 < s.argNat 1 → Gives (.readShape top operand) s (s.taken w .badArgument [] s))
      ∧ (1 ≤ n → n ≤ 32 → s.argNat 1 ≤ 31 →
          (p.shapes.getD (s.argNat 1) none = none → Gives (.readShape top operand) s (s.taken w .notFound [] s))
            ∧ ∀ sh, p.shapes.getD (s.argNat 1) none = some sh →
                (∀ l o, p.catalogue = .known → p.layout = some l → sh.direction ≠ .accepted →
                    l.offsets.getD (s.argNat 1) none = some o →
                    Gives (.readShape top operand) s
                      (s.taken w .ok
                        [BitVec.ofNat 32 sh.width.bits, BitVec.ofNat 32 sh.format.code, BitVec.ofNat 32 sh.direction.code,
                          BitVec.ofNat 32 o] s))
                  ∧ (p.catalogue ≠ .known ∨ sh.direction = .accepted →
                      Gives (.readShape top operand) s
                        (s.taken w .ok
                          [BitVec.ofNat 32 sh.width.bits, BitVec.ofNat 32 sh.format.code,
                            BitVec.ofNat 32 sh.direction.code, 65535] s)))))
    ∧ (∀ (s : State) (top : BitVec 7) (operand : Half), s.ready → s.settled →
    let w := commandWord top 0x12 operand
    let n := s.argNat 0
    let p := s.peer n
    (n = 0 ∨ 32 < n → Gives (.refreshPeer top operand) s (s.taken w .badArgument [] s))
      ∧ (1 ≤ n → n ≤ 32 → p.catalogue ≠ .failed → Gives (.refreshPeer top operand) s (s.taken w .ok [] s))
      ∧ (1 ≤ n → n ≤ 32 → n ≠ s.ctl.config.station → p.catalogue = .failed → s.collectorFree →
          Leads (.refreshPeer top operand) s fun t =>
            t.peers = s.peers.modify (n - 1) (fun q => { q with catalogue := .fetching })
              ∧ (∀ i, (t.entry i).state =
                  if (s.entry i).source = n ∧ (s.entry i).state = .failed .noCatalogue then .resolving
                  else (s.entry i).state)
              ∧ (∀ i, (t.entry i).value = (s.entry i).value)
              ∧ t.host.events = s.host.events ∧ t.slot = s.slot ∧ t.ctl = s.ctl ∧ t.req = s.req ∧ t.pub = s.pub
              ∧ t.line = s.line ∧ t.unitA = s.unitA ∧ t.unitB = s.unitB))

/-! ### Directed requests -/

/-- SEND_REQUEST's checks in their order, and the record it enters at the end of the list: the next tag, WAITING, attempts 0, chained to the
last application record when asked, the two tags returned (R127, R130, R131), whether or not a peer waits for the place it takes (R91);
behind a predecessor that ended FAILED, or with an answer other than OK where the record checks, it ends CHAIN_BROKEN at the command, with
its event, and the command completes with OK (R131). The tag is the first after the counter that no record holds (R128). -/
def Obligations.SendRequestEntersTheRecord : Prop :=
  (∀ (s : State) (top : BitVec 7) (operand : Half), s.ready → s.settled →
    let w := commandWord top 0x14 operand
    let args := (s.argNat 0, s.argNat 1, s.argNat 2, s.argNat 4)
    let good := args.1 ≤ 32 ∧ args.1 ≠ s.ctl.config.station ∧ 1 ≤ args.2.1 ∧ args.2.1 ≤ 3 ∧ (args.1 = 0 → args.2.1 = 3)
      ∧ args.2.2.1 ≤ 31 ∧ args.2.2.2 ≤ 3
    let active := s.ctl.state = .claiming ∨ s.ctl.state = .member
    let check := (s.argWord 4).getLsbD 1
    let tag := s.req.nextTag
    let record (kind : RequestKind) (value : Option Word) (predecessor : Option Nat) : RequestRecord :=
      ⟨s.serial, tag, .application, s.argNat 0, kind, s.argNat 2, value, predecessor, check, .waiting, 0, 0, none, .nothing⟩
    let entered (r : RequestRecord) : State :=
      { s with req := { s.req with list := s.req.list ++ [r], tagCounter := tag }, serial := s.serial + 1 }
    (¬active → Gives (.sendRequest top operand) s (s.taken w .wrongState [] s))
      ∧ (active → ¬good → Gives (.sendRequest top operand) s (s.taken w .badArgument [] s))
      ∧ (active → good → 8 ≤ s.req.list.length → Gives (.sendRequest top operand) s (s.taken w .full [] s))
      ∧ ∀ kind, active → good → s.req.list.length < 8 → RequestKind.ofNat? (s.argNat 1) = some kind →
          let value := if kind = .writePoint then some (s.argWord 3) else none
          ((s.argWord 4).getLsbD 0 = false ∨ (∀ r ∈ s.req.list, r.origin = .discovery) →
              Gives (.sendRequest top operand) s
                (s.taken w .ok [BitVec.ofNat 32 tag, 16] (entered (record kind value none))))
            ∧ (∀ (before after : List RequestRecord) (p : RequestRecord), (s.argWord 4).getLsbD 0 = true →
                s.req.list = before ++ p :: after → p.origin = .application → (∀ r ∈ after, r.origin = .discovery) →
                let words : List Word := [BitVec.ofNat 32 tag, BitVec.ofNat 32 p.tag]
                let chained := record kind value (some p.id)
                let refused := ∃ o, o ≠ .ok ∧ p.outcome = some (.answer o)
                (p.state.live = true ∨ p.outcome = some (.answer .ok) ∨ p.outcome = some .broadcastSent
                      ∨ (refused ∧ check = false) →
                    p.state ≠ .failed → Gives (.sendRequest top operand) s (s.taken w .ok words (entered chained)))
                  ∧ (p.state = .failed ∨ (p.state = .answered ∧ refused ∧ check = true) →
                      (∀ q ∈ s.req.list, q.id ≠ s.serial ∧ q.predecessor ≠ some s.serial) →
                      Gives (.sendRequest top operand) s
                        (s.taken w .ok words
                          ((entered { chained with state := .failed, outcome := some .chainBroken }).withEvent
                            .request 7 tag (s.argNat 0) 0)))))
    ∧ (∀ u : RequestUnit, u.list.length ≤ 8 →
    ∃ k, k < 16 ∧ u.nextTag = (u.tagCounter + 1 + k) % 16 ∧ (∀ r ∈ u.list, r.tag ≠ u.nextTag)
      ∧ ∀ j, j < k → ∃ r ∈ u.list, r.tag = (u.tagCounter + 1 + j) % 16)

/-- TAKE_RESULT returns the ended application record named, or with 16 the first ended one, removes it and clears its successors' links
(R134, R143). CANCEL_REQUEST removes a record of either origin in any state; the WAITING successors of an application record that had not
ended are CHAIN_BROKEN, and theirs down the chain, with their events in list order, none for the record itself; with none it does nothing
else; a tag nobody holds is NOT_FOUND (R133, R142, R144). -/
def Obligations.TakeResultAndCancelRequest : Prop :=
  (∀ (s : State) (top : BitVec 7) (operand : Half), s.ready →
    let w := commandWord top 0x15 operand
    let n := s.argNat 0
    let named (r : RequestRecord) : Prop := r.origin = .application ∧ r.state.live = false ∧ (n = 16 ∨ r.tag = n)
    (16 < n → Gives (.takeResult top operand) s (s.taken w .badArgument [] s))
      ∧ (n ≤ 16 → (∀ r ∈ s.req.list, ¬named r) → Gives (.takeResult top operand) s (s.taken w .notFound [] s))
      ∧ ∀ (before after : List RequestRecord) (r : RequestRecord), n ≤ 16 → s.req.list = before ++ r :: after → named r →
          (∀ q ∈ before, ¬named q) → (∀ q ∈ before ++ after, q.id ≠ r.id) →
          let list := (before ++ after).map fun q => if q.predecessor = some r.id then { q with predecessor := none } else q
          let first := pack4 r.tag ((r.outcome.map RequestOutcome.code).getD 0) r.kind.code r.index
          let rest : List Word :=
            match r.content with
            | .nothing => [pack4 r.target r.attempts 0 0, 0, 0, 0, 0, 0, 0]
            | .value v => [pack4 r.target r.attempts 0 0, v, 0, 0, 0, 0, 0]
            | .count m => [pack4 r.target r.attempts 0 0, BitVec.ofNat 32 m, 0, 0, 0, 0, 0]
            | .descriptor d =>
              [pack4 r.target r.attempts d.name.length d.unit.length, d.low, d.high, packChars d.name,
                packChars (d.name.drop 4), packChars d.unit, pack4 d.width.bits d.format.code d.direction.code 0]
          Gives (.takeResult top operand) s
            (s.taken w .ok (first :: rest) { s with req := { s.req with list := list } }))
    ∧ (∀ (s : State) (top : BitVec 7) (operand : Half), s.ready → s.settled →
    let w := commandWord top 0x16 operand
    let n := s.argNat 0
    (15 < n → Gives (.cancelRequest top operand) s (s.taken w .badArgument [] s))
      ∧ (n ≤ 15 → (∀ r ∈ s.req.list, r.tag ≠ n) → Gives (.cancelRequest top operand) s (s.taken w .notFound [] s))
      ∧ ∀ (before after : List RequestRecord) (r : RequestRecord), n ≤ 15 → s.req.list = before ++ r :: after → r.tag = n →
          (∀ q ∈ before, q.tag ≠ n) → (s.req.list.map (·.id)).Nodup → r.predecessor ≠ some r.id →
          Leads (.cancelRequest top operand) s (fun t =>
              t.host.running.map (·.result) = some .ok ∧ t.req.list.map (·.id) = (before ++ after).map (·.id)
                ∧ ∀ q ∈ t.req.list, q.predecessor ≠ some r.id)
            ∧ (r.origin = .discovery ∨ r.state.live = false ∨
                  (∀ q ∈ before ++ after, q.predecessor = some r.id → q.state ≠ .waiting) →
                Gives (.cancelRequest top operand) s
                  (s.taken w .ok []
                    { s with
                      req :=
                        { s.req with
                          list := (before ++ after).map fun q =>
                            if q.predecessor = some r.id then { q with predecessor := none } else q } }))
            ∧ (r.origin = .application → r.state.live = true →
                (∀ q ∈ before ++ after, q.predecessor ≠ none → q.origin = .application) →
                (∀ q ∈ before, q.predecessor ≠ some r.id) →
                (∀ (xs ys : List RequestRecord) (q : RequestRecord), after = xs ++ q :: ys →
                  ∀ p ∈ q :: ys, q.predecessor ≠ some p.id) →
                ∃ broken : RequestRecord → Bool,
                  (∀ q ∈ after,
                    broken q = true ↔
                      q.state = .waiting
                        ∧ (q.predecessor = some r.id ∨ ∃ p ∈ after, q.predecessor = some p.id ∧ broken p = true))
                    ∧ Gives (.cancelRequest top operand) s
                        (s.taken w .ok []
                          { s with
                            req :=
                              { s.req with
                                list :=
                                  (before
                                    ++ after.map fun q =>
                                        if broken q then
                                          { q with state := .failed, outcome := some .chainBroken, content := .nothing }
                                        else q).map fun q =>
                                    if q.predecessor = some r.id then { q with predecessor := none } else q }
                            host :=
                              ((after.filter broken).map fun q =>
                                (⟨.request, 7, q.tag, q.target, 0, s.slot.round⟩ : EventRecord)).foldl enterEvent s.host })))

/-- The end of an application record judges its successors and theirs: a WAITING successor is CHAIN_BROKEN after a failure, after an answer
other than OK with the check flag, and after a record broken by this same end, so that the break runs down the chain; every other record
stays. The REQUEST events come in list order after the ended record's own (R133, R142; that a record stands behind its predecessor is
R131's, since records enter at the end). -/
def Obligations.EndOfARecordJudgesItsSuccessors : Prop :=
  ∀ (s : State) (before after : List RequestRecord) (r : RequestRecord) (outcome : RequestOutcome) (content : Content),
    s.req.list = before ++ r :: after → (s.req.list.map (·.id)).Nodup → r.origin = .application →
    (∀ q ∈ before ++ after, q.predecessor ≠ none → q.origin = .application) → (∀ q ∈ before, q.predecessor ≠ some r.id) →
    (∀ q ∈ before, ∀ p ∈ after, q.predecessor ≠ some p.id) →
    (∀ (xs ys : List RequestRecord) (q : RequestRecord), after = xs ++ q :: ys → ∀ p ∈ q :: ys, q.predecessor ≠ some p.id) →
    let ended : RequestRecord := { r with state := outcome.endState, outcome := some outcome, content := content }
    let failure := outcome = .noAnswer ∨ outcome = .targetGone ∨ outcome = .chainBroken ∨ outcome = .aborted
    let refusal := ∃ o, o ≠ .ok ∧ outcome = .answer o
    ∃ broken : RequestRecord → Bool,
      (∀ q ∈ after,
        broken q = true ↔
          q.state = .waiting
            ∧ ((q.predecessor = some r.id ∧ (failure ∨ (refusal ∧ q.check = true)))
                ∨ ∃ p ∈ after, q.predecessor = some p.id ∧ broken p = true))
        ∧ endRecord r.id outcome content s
            = { s with
                req :=
                  { s.req with
                    list :=
                      before
                        ++ ended
                          :: after.map fun q =>
                              if broken q then { q with state := .failed, outcome := some .chainBroken, content := .nothing }
                              else q }
                raised :=
                  s.raised
                    ++ ⟨.request, outcome.code, r.tag, r.target, content.eventValue, s.slot.round⟩
                      :: (after.filter broken).map fun q => ⟨.request, 7, q.tag, q.target, 0, s.slot.round⟩ }

/-! ### Requests of peers -/

/-- A request addressed to this station in CLAIMING, MEMBER or LEAVING: a repeat of one still queued changes nothing; a full queue drops it;
a READ is answered from the catalogue, and a WRITE_POINT beyond the count with NO_POINT (R69, R70, R71). A request for another station
changes nothing (R68). A broadcast READ is counted and ignored, and a broadcast write is judged alike and never answered (R68, R72). A write
is judged by R71's tests in order; OK replaces the value, names the writer and raises PEER_WRITE, any other outcome leaves the point as it
is (R71, R73). -/
def Obligations.RequestsOfPeersAreServed : Prop :=
  (∀ (s : State) (n : Nat) (r : RequestSection), r.target = s.ctl.config.station → r.target ≠ 0 →
    let serving := s.ctl.state = .claiming ∨ s.ctl.state = .member ∨ s.ctl.state = .leaving
    let repeated := ∃ a ∈ s.pub.answers, a.requester = n ∧ a.tag = r.tag ∧ a.kind = r.kind ∧ a.index = r.index
    let answered (o : AnswerOutcome) (c : Content) : State :=
      { s with
        pub := { s.pub with answers := s.pub.answers ++ [⟨s.serial, n, r.tag, r.kind, r.index, o, c⟩] }
        serial := s.serial + 1 }
    (¬serving → requestArrival n r s = { s with pub := { s.pub with notServed := satInc s.pub.notServed } })
      ∧ (serving → repeated → requestArrival n r s = s)
      ∧ (serving → ¬repeated → 4 ≤ s.pub.answers.length →
          requestArrival n r s = { s with pub := { s.pub with dropped := satInc s.pub.dropped } })
      ∧ (serving → ¬repeated → s.pub.answers.length < 4 →
          (r.kind = .readEntry → s.pub.catalogue.length ≤ r.index →
              requestArrival n r s = answered .catalogueEnd (.count s.pub.catalogue.length))
            ∧ (r.kind = .readPoint ∨ r.kind = .writePoint → s.pub.catalogue.length ≤ r.index →
                requestArrival n r s = answered .noPoint .nothing)
            ∧ ∀ p, s.pub.catalogue.drop r.index = p :: s.pub.catalogue.drop (r.index + 1) →
                (r.kind = .readEntry → requestArrival n r s = answered .ok (.descriptor p.descriptor))
                  ∧ (r.kind = .readPoint → requestArrival n r s = answered .ok (.value p.value))))
    ∧ (∀ (s : State) (n : Nat) (r : RequestSection) (v : Word) (p : Point),
    r.kind = .writePoint → r.value = some v → r.target = s.ctl.config.station → r.target ≠ 0 →
    (s.ctl.state = .claiming ∨ s.ctl.state = .member ∨ s.ctl.state = .leaving) → s.pub.answers.length < 4 →
    (∀ a ∈ s.pub.answers, ¬(a.requester = n ∧ a.tag = r.tag ∧ a.kind = r.kind ∧ a.index = r.index)) →
    s.pub.catalogue.drop r.index = p :: s.pub.catalogue.drop (r.index + 1) →
    let answer (o : AnswerOutcome) (c : Content) : Answer := ⟨s.serial, n, r.tag, r.kind, r.index, o, c⟩
    let outside := p.descriptor.format ≠ .flags ∧
      (lessThan p.descriptor.format v p.descriptor.low = true ∨ lessThan p.descriptor.format p.descriptor.high v = true)
    let written := if p.descriptor.format = .flags then lowBits p.descriptor.width v else v
    (p.descriptor.direction = .published →
        requestArrival n r s
          = { s with
              pub := { s.pub with answers := s.pub.answers ++ [answer .notAccepted .nothing] }, serial := s.serial + 1 })
      ∧ (p.descriptor.direction ≠ .published → outside →
          requestArrival n r s
            = { s with
                pub := { s.pub with answers := s.pub.answers ++ [answer .outOfRange (.value p.value)] }
                serial := s.serial + 1 })
      ∧ (p.descriptor.direction ≠ .published → ¬outside →
          requestArrival n r s
            = { s with
                pub :=
                  { s.pub with
                    answers := s.pub.answers ++ [answer .ok (.value written)]
                    catalogue := s.pub.catalogue.set r.index { p with value := written, writer := n } }
                raised := s.raised ++ [⟨.peerWrite, 1, r.index, n, written, s.slot.round⟩]
                serial := s.serial + 1 }))
    ∧ (∀ (s : State) (n : Nat) (r : RequestSection), r.target ≠ 0 → r.target ≠ s.ctl.config.station → requestArrival n r s = s)
    ∧ ∀ (s : State) (n : Nat) (r : RequestSection), r.target = 0 →
        let serving := s.ctl.state = .claiming ∨ s.ctl.state = .member ∨ s.ctl.state = .leaving
        (r.kind ≠ .writePoint →
            requestArrival n r s = { s with pub := { s.pub with broadcastIgnored := satInc s.pub.broadcastIgnored } })
          ∧ (r.kind = .writePoint → ¬serving →
              requestArrival n r s = { s with pub := { s.pub with notServed := satInc s.pub.notServed } })
          ∧ (r.kind = .writePoint → serving → s.pub.catalogue.length ≤ r.index → requestArrival n r s = s)
          ∧ ∀ v p, r.kind = .writePoint → r.value = some v → serving →
              s.pub.catalogue.drop r.index = p :: s.pub.catalogue.drop (r.index + 1) →
              let outside := p.descriptor.format ≠ .flags ∧
                (lessThan p.descriptor.format v p.descriptor.low = true ∨ lessThan p.descriptor.format p.descriptor.high v = true)
              let written := if p.descriptor.format = .flags then lowBits p.descriptor.width v else v
              (p.descriptor.direction = .published ∨ outside → requestArrival n r s = s)
                ∧ (p.descriptor.direction ≠ .published → ¬outside →
                    requestArrival n r s
                      = { s with
                          pub :=
                            { s.pub with
                              catalogue := s.pub.catalogue.set r.index { p with value := written, writer := n } }
                          raised := s.raised ++ [⟨.peerWrite, 2, r.index, n, written, s.slot.round⟩] })

/-! ### Snapshot units -/

/-- SET_SNAPSHOT programs a unit that is not COLLECTING with the trigger its code and parameter name, and keeps the result of its last
collection (R158, R159). REARM_SNAPSHOT arms a SPENT unit (R160); READ_SNAPSHOT returns one place of the result with the unit's numbers,
BUSY while it collects (R161). -/
def Obligations.SnapshotsAreProgrammedRearmedAndRead : Prop :=
  (∀ (s : State) (top : BitVec 7) (operand : Half) (u : UnitId), s.ready →
    let w := commandWord top 0x17 operand
    let k (j : Nat) : Nat := (byteOf (s.argWord 0) j).toNat
    let set := ((charsOf [s.argWord 3, s.argWord 4, s.argWord 5, s.argWord 6]).take (s.argNat 2)).map (·.toNat)
    let x := s.unit u
    let parameter := s.argNat 1
    let names (trigger : Trigger) : Prop :=
      (k 2 = 1 ∧ trigger = .command) ∨ (k 2 = 2 ∧ 1 ≤ parameter ∧ parameter ≤ 255 ∧ trigger = .round parameter)
        ∨ (k 2 = 3 ∧ parameter = 1 ∧ trigger = .pin true) ∨ (k 2 = 3 ∧ parameter = 2 ∧ trigger = .pin false)
        ∨ (k 2 = 4 ∧ parameter ≤ 127 ∧ trigger = .watch parameter)
    let good := k 1 ≤ 3 ∧ 1 ≤ k 0 ∧ k 0 ≤ 15 ∧ 1 ≤ s.argNat 2 ∧ s.argNat 2 ≤ 16 ∧ (∀ i ∈ set, i ≤ 127) ∧ set.Nodup
    (k 3 ≠ 1 → k 3 ≠ 2 → Gives (.setSnapshot top operand) s (s.taken w .badArgument [] s))
      ∧ (k 3 = u.code → x.state = .collecting → Gives (.setSnapshot top operand) s (s.taken w .busy [] s))
      ∧ (k 3 = u.code → x.state ≠ .collecting → k 2 = 0 →
          Gives (.setSnapshot top operand) s
            (s.taken w .ok []
              (s.modUnit u fun _ =>
                { x with
                  state := .off, trigger := .nothing, set := [], hold := false, oneShot := false, deadline := 1
                  periodCount := 0, ignored := 0 })))
      ∧ (k 3 = u.code → x.state ≠ .collecting → k 2 ≠ 0 → (∀ trigger, ¬names trigger) ∨ ¬good →
          Gives (.setSnapshot top operand) s (s.taken w .badArgument [] s))
      ∧ ∀ trigger, k 3 = u.code → x.state ≠ .collecting → k 2 ≠ 0 → names trigger → good →
          Gives (.setSnapshot top operand) s
            (s.taken w .ok []
              (s.modUnit u fun _ =>
                { x with
                  state := .armed, trigger := trigger, set := set, hold := (byteOf (s.argWord 0) 1).getLsbD 0
                  oneShot := (byteOf (s.argWord 0) 1).getLsbD 1, deadline := k 0, periodCount := 0, ignored := 0 })))
    ∧ ((∀ (s : State) (top : BitVec 7) (operand : Half), s.ready →
    let w := commandWord top 0x19 operand
    (s.argNat 0 ≠ 1 → s.argNat 0 ≠ 2 → Gives (.rearmSnapshot top operand) s (s.taken w .badArgument [] s))
      ∧ ∀ u : UnitId, s.argNat 0 = u.code →
          ((s.unit u).state = .spent →
              Gives (.rearmSnapshot top operand) s
                (s.taken w .ok [] (s.modUnit u fun x => { x with state := .armed })))
            ∧ ((s.unit u).state = .off → Gives (.rearmSnapshot top operand) s (s.taken w .wrongState [] s))
            ∧ ((s.unit u).state = .armed ∨ (s.unit u).state = .pending ∨ (s.unit u).state = .collecting →
                Gives (.rearmSnapshot top operand) s (s.taken w .ok [] s)))
    ∧ (∀ (s : State) (top : BitVec 7) (operand : Half), s.ready →
    let w := commandWord top 0x1A operand
    let k := s.argNat 1
    (15 < k ∨ (s.argNat 0 ≠ 1 ∧ s.argNat 0 ≠ 2) → Gives (.readSnapshot top operand) s (s.taken w .badArgument [] s))
      ∧ ∀ u : UnitId, s.argNat 0 = u.code → k ≤ 15 →
          let x := s.unit u
          let head : List Word :=
            [BitVec.ofNat 16 x.state.code ++ BitVec.ofNat 16 x.summary.code, x.start ++ BitVec.ofNat 16 x.places.length,
              x.ignored.setWidth 32]
          let counts : Word :=
            BitVec.ofNat 16 (x.places.countP fun p => p.status == .captured)
              ++ BitVec.ofNat 16 (x.places.countP fun p => p.status == .missing)
          (x.state = .collecting → Gives (.readSnapshot top operand) s (s.taken w .busy [] s))
            ∧ (x.state ≠ .collecting → x.places.length ≤ k →
                Gives (.readSnapshot top operand) s (s.taken w .ok (head ++ [0, 0, 0, 0, counts]) s))
            ∧ ∀ p, x.state ≠ .collecting → x.places.drop k = p :: x.places.drop (k + 1) →
                Gives (.readSnapshot top operand) s
                  (s.taken w .ok
                    (head
                      ++ [BitVec.ofNat 32 p.entry, BitVec.ofNat 32 p.status.code, p.value, p.stamp.setWidth 32, counts]) s)))

/-- FIRE_SNAPSHOT triggers the COMMAND units named, together, and returns their states; an edge of TRIG triggers the PIN units of that edge,
together. An ARMED unit with a place pending at the start collects; one with none ends PARTIAL at its start, with its event; while the other
collects it waits, PENDING, with HOLD, and drops and counts the trigger without, as a unit does that is COLLECTING or PENDING itself; a
SPENT or OFF unit ignores it. Of two ARMED units A collects, and B was triggered while A collected, also where A's collection ended at its
start. A level of TRIG that is no edge changes nothing, and an edge that triggers no unit only the level (R149, R150, R151, R152, R153). -/
def Obligations.FireSnapshotAndTrigEdge : Prop :=
  ∀ s : State, s.live → s.settled → s.hasDue = false → s.inArrival = false →
    let place (i : Nat) : Place :=
      if (s.entry i).state = .waiting ∨ (s.entry i).state = .fresh ∨ (s.entry i).state = .stale then ⟨i, .pending, 0, 0⟩
      else ⟨i, .missing, 0, s.slot.round⟩
    let begun (x : SnapshotUnit) : SnapshotUnit :=
      { x with
        state := .collecting, start := s.slot.round, summary := .nothing, places := x.set.map place, deadlineCount := 0
        deadlineDue := false, begunNow := true, passOver := false }
    let ended (x : SnapshotUnit) : SnapshotUnit :=
      { begun x with state := if x.oneShot then .spent else .armed, summary := .incomplete }
    let counted (x : SnapshotUnit) : SnapshotUnit := { x with ignored := satInc x.ignored }
    let waits (x : SnapshotUnit) : Prop := ∃ i ∈ x.set, (s.entry i).state.served = true
    let void (x : SnapshotUnit) : Prop := x.set ≠ [] ∧ ∀ i ∈ x.set, (s.entry i).state.served = false
    let busy (x : SnapshotUnit) : Prop := x.state = .collecting ∧ ∃ p ∈ x.places, p.status = .pending
    let ends (u : UnitId) (t : State) : State := t.withEvent .snapshot 2 u.code 0 (BitVec.ofNat 32 (s.unit u).set.length)
    let outcomes (toA toB : Prop) (gives : State → Prop) : Prop :=
      (∀ u : UnitId, (toA ↔ u = .a) → (toB ↔ u = .b) →
          let x := s.unit u
          let y := s.unit u.other
          (x.state = .armed → y.state ≠ .collecting → waits x → gives (s.modUnit u begun))
            ∧ (x.state = .armed → y.state ≠ .collecting → y.state ≠ .pending → void x → gives (ends u (s.modUnit u ended)))
            ∧ (x.state = .armed → y.state = .collecting → x.hold = true →
                gives (s.modUnit u fun z => { z with state := .pending }))
            ∧ (x.state = .armed → y.state = .collecting → x.hold = false → gives (s.modUnit u counted))
            ∧ (busy x ∨ x.state = .pending → gives (s.modUnit u counted))
            ∧ (x.state = .spent ∨ x.state = .off → gives s))
        ∧ (toA → toB →
            let a := s.unitA
            let b := s.unitB
            (a.state = .armed → b.state = .armed → waits a →
                gives { s with unitA := begun a, unitB := if b.hold then { b with state := .pending } else counted b })
              ∧ (a.state = .armed → b.state = .armed → void a → b.hold = false →
                  gives (ends .a { s with unitA := ended a, unitB := counted b }))
              ∧ (a.state = .armed → b.state = .armed → void a → b.hold = true → waits b →
                  gives (ends .a { s with unitA := ended a, unitB := begun b }))
              ∧ ∀ u : UnitId, (s.unit u).state = .armed → waits (s.unit u) →
                  (s.unit u.other).state = .spent ∨ (s.unit u.other).state = .off → gives (s.modUnit u begun))
    (∀ (top : BitVec 7) (operand : Half), s.host.running = none →
        let w := commandWord top 0x18 operand
        let n := s.argNat 0
        let states (t : State) : List Word := [BitVec.ofNat 32 t.unitA.state.code, BitVec.ofNat 32 t.unitB.state.code]
        let toA := n = 1 ∨ n = 3
        let toB := n = 2 ∨ n = 3
        (n = 0 ∨ 3 < n → Gives (.fireSnapshot top operand) s (s.taken w .badArgument [] s))
          ∧ (n ≤ 3 → (toA ∧ s.unitA.trigger ≠ .command) ∨ (toB ∧ s.unitB.trigger ≠ .command) →
              Gives (.fireSnapshot top operand) s (s.taken w .wrongState [] s))
          ∧ (1 ≤ n → n ≤ 3 → (toA → s.unitA.trigger = .command) → (toB → s.unitB.trigger = .command) →
              outcomes toA toB fun t => Gives (.fireSnapshot top operand) s (s.taken w .ok (states t) t)))
      ∧ ∀ level : Bool,
          (s.trig.pin = level → exec (.trigEdge level) s = .next s)
            ∧ (s.trig.pin ≠ level → s.unitA.trigger ≠ .pin level → s.unitB.trigger ≠ .pin level →
                Gives (.trigEdge level) s { s with trig := ⟨level, level⟩ })
            ∧ (s.trig.pin ≠ level →
                outcomes (s.unitA.trigger = .pin level) (s.unitB.trigger = .pin level) fun t =>
                  Gives (.trigEdge level) s { t with trig := ⟨level, level⟩ })

/-- A collection's course. A value taken for an entry captures every pending place of it, with the round counter as its stamp; an entry's
passage makes them MISSING with value 0; a decided place stays; with no unit collecting, or while the arrival is taken that began the
collection, a value captures nothing (R154, R155). With the last place decided the collection ends COMPLETE or PARTIAL, SPENT or ARMED, with
SNAPSHOT (R157), and a PENDING unit begins its own (R152). The WATCH raised for an entry triggers the unit that names it (R125). Triggers
that reach both units in one moment, from one cause or several and in either order, find A collecting first, and B waits, or drops its
trigger, also where A's collection has ended at its start; more triggers of B in that moment act by the state the one before left it in
(R149, R151, R152; that B's triggers wait for the moment's end, and what the units remember of it, is the model's form, log 20, and so is
the start stamp B then takes, log 38). -/
def Obligations.CollectionsCaptureAndEnd : Prop :=
  (∀ (s : State) (u : UnitId) (i : Nat) (v : Word), (s.unit u).state = .collecting → (s.unit u.other).state ≠ .collecting →
    let x := s.unit u
    let decide (missing : Bool) : List Place := x.places.map fun p =>
      if p.entry = i ∧ p.status = .pending then
        ⟨p.entry, if missing then .missing else .captured, if missing then 0 else v, s.slot.round⟩
      else p
    let course (places : List Place) (t : State) : Prop :=
      let m := places.countP fun p => p.status == .missing
      let k := places.countP fun p => p.status == .captured
      let closed : SnapshotUnit :=
        { x with
          places := places, deadlineDue := false, state := if x.oneShot then .spent else .armed
          summary := if m = 0 then .complete else .incomplete }
      let event : EventRecord := ⟨.snapshot, if m = 0 then 1 else 2, u.code, k, BitVec.ofNat 32 m, s.slot.round⟩
      ((∃ p ∈ places, p.status = .pending) → t = s.modUnit u fun _ => { x with places := places })
        ∧ ((∀ p ∈ places, p.status ≠ .pending) →
            ((s.unit u.other).state ≠ .pending → t = { s.modUnit u fun _ => closed with raised := s.raised ++ [event] })
              ∧ ((s.unit u.other).state = .pending → (∃ j ∈ (s.unit u.other).set, (s.entry j).state.served = true) →
                  (t.unit u = closed ∧ (t.unit u.other).state = .collecting
                    ∧ (t.unit u.other).places = (s.unit u.other).set.map (startPlace s)
                    ∧ t.raised = s.raised ++ [event])))
    (x.passOver = true → captureValue i v s = s)
      ∧ (x.passOver = false → course (decide false) (captureValue i v s))
      ∧ course (decide true) (missEntry i s))
    ∧ (∀ (s : State) (i : Nat) (v : Word), s.collectorFree → captureValue i v s = s ∧ missEntry i s = s)
    ∧ (∀ (s : State) (i : Nat) (f : Format) (e : ImageEntry) (w : Watch), s.image.drop i = e :: s.image.drop (i + 1) →
        e.watch = some w → s.unitA.trigger = .watch i → s.unitB.trigger ≠ .watch i → s.unitA.state = .armed →
        s.unitB.state ≠ .collecting → s.called = 0 → w.reports (w.place f e.value) = true →
        (∃ j ∈ s.unitA.set, (s.entry j).state.served = true) →
        let zone := w.place f e.value
        let t : State :=
          { s with
            image := s.image.set i { e with watch := some { w with zone := zone } }
            raised := s.raised ++ [⟨.watch, zone.code, i, w.zone.code, e.value, s.slot.round⟩] }
        evaluateWatch i f s
          = { t with
              unitA :=
                { s.unitA with
                  state := .collecting, start := s.slot.round, summary := .nothing, places := s.unitA.set.map (startPlace s)
                  deadlineCount := 0, deadlineDue := false, begunNow := true, passOver := s.inArrival }
              began := true })
    ∧ ∀ s : State, s.unitB.state = .armed → s.unitA.state ≠ .collecting → s.unitA.state ≠ .pending →
        let begun (x : SnapshotUnit) : SnapshotUnit :=
          { x with
            state := .collecting, start := s.slot.round, summary := .nothing, places := x.set.map (startPlace s)
            deadlineCount := 0, deadlineDue := false, begunNow := true, passOver := s.inArrival }
        let dropped (x : SnapshotUnit) : SnapshotUnit := { x with ignored := satInc x.ignored }
        let waits (x : SnapshotUnit) : Prop := ∃ j ∈ x.set, (s.entry j).state.served = true
        let a := begun s.unitA
        let b := if s.unitB.hold then { s.unitB with state := .pending } else dropped s.unitB
        (s.unitA.state = .armed → s.began = false → s.called = 0 → giveTriggers false true s = { s with called := 1 })
          ∧ (s.called ≠ 0 → giveTriggers false true s = { s with called := s.called + 1 })
          ∧ (s.unitA.state = .armed → waits s.unitA →
              (s.called = 0 → giveTriggers true true s = { s with unitA := a, unitB := b, began := true })
                ∧ (s.called = 1 → giveTriggers true false s = { s with unitA := a, unitB := b, called := 0, began := true })
                ∧ (s.called = 2 →
                    giveTriggers true false s = { s with unitA := a, unitB := dropped b, called := 0, began := true }))
          ∧ (s.began = true → s.called = 0 →
              (s.unitB.hold = false → giveTriggers false true s = { s with unitB := dropped s.unitB })
                ∧ (s.unitB.hold = true → waits s.unitB → giveTriggers false true s = { s with unitB := begun s.unitB }))
          ∧ (waits s.unitB →
              (s.called = 1 → takeCall s = { s with unitB := begun s.unitB, called := 0, began := false })
                ∧ (s.called = 2 → takeCall s = { s with unitB := dropped (begun s.unitB), called := 0, began := false }))
          ∧ (s.unitB.set ≠ [] → ¬waits s.unitB → s.called = 2 →
              let ended : SnapshotUnit :=
                { begun s.unitB with state := if s.unitB.oneShot then .spent else .armed, summary := .incomplete }
              let event : EventRecord := ⟨.snapshot, 2, 2, 0, BitVec.ofNat 32 s.unitB.set.length, s.slot.round⟩
              takeCall s
                = { s with
                    unitB := ended, called := 0, began := false
                    raised := s.raised ++ if s.unitB.oneShot then [event] else [event, event] })

/-! ### The line -/

/-- The eight events of bus time let bit times pass, one for each level, and one after another, so that what the statements say of one level
is said of any number (log 8). TXD is recessive while TXE is off, and shows the frame's level of the bit time come to while it is on (R1).
-/
def Obligations.BitTimesPassOneByOne : Prop :=
  (∀ s : State, s.live → ∀ row ∈ [@Instr.startBitTaken, @Instr.arrivalEnd, @Instr.arbitrationLoss, @Instr.sendPoint,
        @Instr.transmissionSent, @Instr.holdBegin, @Instr.holdEnd, @Instr.endOfSlot],
      ∀ (before : List Level) (level last : Level),
        ∃ t, exec (row before level) s = .next t ∧ t.live ∧ exec (row (before ++ [level]) last) s = exec (row [] last) t)
    ∧ ∀ s : State,
        (s.txeOn = false → s.txd = .recessive)
          ∧ ∀ (x : Transmission) (k : Nat), s.line.tx = some x → x.phase = .sending k →
              s.txeOn = true ∧ s.txd = (frameLevels x.bytes).getD k .recessive

/-- The receiver reads the bytes sent: from a start bit on, bytes sent as R1 says, with gaps of at most 11 recessive bit times behind them,
are all read, the first 96 kept and more marked overlong, and the arrival has not ended; 12 recessive bit times after a stop bit end it. A
dominant level in the place of a stop bit marks it lost, and then no byte is collected, and 12 recessive bit times in a row end the arrival
(R1, R2). -/
def Obligations.TheReceiverReadsWhatIsSent : Prop :=
  (∀ (slot : Option Nat) (own : Bool) (sent : List (Byte × Nat)) (b : Byte) (g : Nat), (∀ x ∈ sent, x.2 ≤ 11) → g ≤ 11 →
    let levels := (sent ++ [(b, g)]).flatMap fun x => byteLevels x.1 ++ List.replicate x.2 .recessive
    let bytes := sent.map (·.1) ++ [b]
    let heard := levels.tail.foldl (fun r level => r.hear level) { Reception.start slot with own := own }
    heard = ⟨slot, own, bytes.take 96, decide (96 < bytes.length), false, .gap g⟩ ∧ heard.ended = false
      ∧ ((List.replicate (12 - g) .recessive).foldl (fun r level => r.hear level) heard).ended = true)
    ∧ ∀ (r : Reception) (bits : Byte) (levels : List Level), r.phase = .stop bits →
        let heard := levels.foldl (fun r level => r.hear level) (r.hear .dominant)
        heard.missing = true ∧ heard.bytes = r.bytes ∧ heard.overlong = r.overlong
          ∧ (levels.length < 12 → heard.ended = false)
          ∧ (12 ≤ levels.length → (∀ l ∈ levels.drop (levels.length - 12), l = .recessive) → heard.ended = true)

/-- START_BIT_TAKEN: a waiting receiver takes a dominant level as a start bit after 12 recessive bit times, outside a hold, with the slot
the slot counter shows, none in OFF; an edge that comes sooner, or in a hold, is not taken (R2, R12, R15). ARBITRATION_LOSS: a bit read back
that differs from the bit sent, in either direction, ends the transmission LOST, counted, its report waiting for the winner's arrival,
unless the station has entered OFF since the frame began, and that arrival never this station's own; one that agrees lets the frame go on
(R3, R11, R13, R21; which arrival a report waits for where none is in progress, log 10). -/
def Obligations.StartBitAndArbitrationLoss : Prop :=
  (∀ s : State, s.midSlot → s.txeOn = false → s.line.receiver = .waiting → s.noHold .dominant →
    let line := s.line.measure .dominant
    let slot := if s.ctl.state = .off then none else some s.slot.counter
    (s.line.rxd = .recessive → 12 ≤ s.line.run → s.line.hold = false →
        Gives (.startBitTaken [] .dominant) s
          { s.afterBit .dominant with
            line := { line with receiver := .inside ⟨slot, false, [], false, false, .data 0 0⟩ } })
      ∧ (s.line.rxd = .dominant ∨ s.line.run < 12 ∨ s.line.hold = true →
          Gives (.startBitTaken [] .dominant) s (s.afterBit .dominant)))
    ∧ ∀ (s : State) (x : Transmission) (k : Nat) (level : Level), s.midSlot → s.line.tx = some x → x.phase = .sending k →
        s.line.hold = false → s.noHold level → (s.heard level).ended = false →
        let line : LineUnit := { s.line.measure level with receiver := s.heard level }
        let winners : Receiver := match s.heard level with
          | .inside r => .inside { r with own := false }
          | .waiting => .waiting
        (x.level ≠ level →
            Gives (.arbitrationLoss [] level) s
              { s.afterBit level with
                line :=
                  { line with
                    tx := none
                    receiver := winners
                    arbitrationLosses := satInc s.line.arbitrationLosses
                    lost := if x.offSince then s.line.lost else s.line.lost ++ [x] } })
          ∧ (x.level = level → k + 1 < 10 * x.bytes.length →
              Gives (.arbitrationLoss [] level) s
                { s.afterBit level with line := { line with tx := some { x with phase := .sending (k + 1) } } })

/-- SEND_POINT, at slot timer 16: with the receiver waiting an assembled frame is begun, its start bit going out next; with the receiver
inside an arrival it is LOST without being begun, and that arrival is the winner's, whoever sent it: not this station's own, also where a
frame of this station began it; in a hold the frame is ABANDONED, the sequence count unchanged. In OFF the timer stands still and there is
no send point (R4, R11, R16, R21). -/
def Obligations.SendPointBeginsOrLosesTheFrame : Prop :=
  ∀ (s : State) (level : Level), s.quiet → s.txeOn = false → s.noHold level → (s.heard level).ended = false →
    let line : LineUnit := { s.line.measure level with receiver := s.heard level }
    let passed : State := { s.afterBit level with line := line }
    (s.ctl.state = .off → s.line.hold = false → Gives (.sendPoint [] level) s passed)
      ∧ (s.ctl.state ≠ .off → s.slot.timer = 15 →
          (s.line.tx = none → s.line.hold = false → Gives (.sendPoint [] level) s passed)
            ∧ ∀ x : Transmission, s.line.tx = some x →
                (s.line.hold = false → s.heard level = .waiting →
                    Gives (.sendPoint [] level) s { passed with line := { line with tx := some { x with phase := .sending 0 } } })
                  ∧ (∀ r, s.line.hold = false → s.heard level = .inside r →
                      Gives (.sendPoint [] level) s
                        { passed with
                          line :=
                            { line with
                              tx := none
                              receiver := .inside { r with own := false }
                              arbitrationLosses := satInc s.line.arbitrationLosses
                              lost := if x.offSince then s.line.lost else s.line.lost ++ [x] } })
                  ∧ (s.line.hold = true → level = .dominant →
                      Leads (.sendPoint [] level) s fun t =>
                        t.line.tx = none ∧ t.line.sequence = s.line.sequence
                          ∧ t.line.arbitrationLosses = s.line.arbitrationLosses))

/-- TRANSMISSION_SENT: the sequence count adds 1 and the arrival is this station's own; a claim frame raises the clean count, the third
makes the record OWNED, with SLOT OWNED and the number of OWNED records, and a CLAIMING station a MEMBER; a slot frame of a MEMBER clears
the clash count, its answer leaves the queue, and its request is SENT with one attempt more and wait 2, or ends BROADCAST_SENT; a slot frame
in LEAVING frees its record, and the last one takes the station to OFF with LEAVE_DONE, every block as entering OFF leaves it (R11, R21,
R30, R34, R36, R48, R51, R52, R75, R112, R136, R141). -/
def Obligations.SentFramesAreReported : Prop :=
  ∀ (s : State) (x : Transmission) (k : Nat), s.midSlot → s.line.hold = false → s.line.tx = some x → x.phase = .sending k →
    k + 1 = 10 * x.bytes.length → (s.heard .recessive).ended = false →
    let line : LineUnit :=
      { s.line.measure .recessive with
        tx := none
        sequence := s.line.sequence + 1
        receiver := match s.heard .recessive with
          | .inside r => .inside { r with own := true }
          | .waiting => .waiting }
    let passed := s.afterBit .recessive
    let slot (st : SlotState) : SlotUnit :=
      { passed.slot with map := s.slot.map.modify x.slot fun r => { r with state := st } }
    let answers :=
      match x.answer with
      | some id => s.pub.answers.filter fun a => a.id ≠ id
      | none => s.pub.answers
    (∀ c, x.kind = .claimFrame → x.answer = none → x.request = none → (s.slotAt x.slot).state = .claiming c →
        (c < 2 → Gives (.transmissionSent [] .recessive) s { passed with line := line, slot := slot (.claiming (c + 1)) })
          ∧ (2 ≤ c → s.ctl.state = .member → 1 ≤ s.ownedCount →
              Gives (.transmissionSent [] .recessive) s
                ({ passed with line := line, slot := slot (.owned 0) }.withEvent
                  .slot 1 x.slot 0 (BitVec.ofNat 32 (s.ownedCount + 1))))
          ∧ (2 ≤ c → s.ctl.state = .claiming → s.ownedCount = 0 → s.host.events.length ≤ 30 →
              Leads (.transmissionSent [] .recessive) s fun t =>
                let owned : EventRecord := ⟨.slot, 1, x.slot, 0, 1, s.slot.round⟩
                let joined : EventRecord := ⟨.station, 1, s.ctl.config.station, 3, 3, s.slot.round⟩
                t.line = line ∧ t.slot = slot (.owned 0) ∧ t.ctl = { s.ctl with state := .member }
                  ∧ (t.host.events = s.host.events ++ [owned, joined] ∨ t.host.events = s.host.events ++ [joined, owned])
                  ∧ t.pub = s.pub ∧ t.req = s.req ∧ t.peers = s.peers ∧ t.image = s.image))
      ∧ (∀ c, x.kind = .slotFrame → s.ctl.state = .member → (s.slotAt x.slot).state = .owned c →
          let t : State := { passed with line := line, slot := slot (.owned 0), pub := { s.pub with answers := answers } }
          (x.request = none → Gives (.transmissionSent [] .recessive) s t)
            ∧ ∀ (before after : List RequestRecord) (r : RequestRecord), s.req.list = before ++ r :: after →
                x.request = some r.id → r.state = .waiting → (∀ q ∈ before ++ after, q.id ≠ r.id) →
                (r.target ≠ 0 →
                    Gives (.transmissionSent [] .recessive) s
                      { t with
                        req :=
                          { s.req with
                            list := before ++ { r with attempts := r.attempts + 1, state := .sent, wait := 2 } :: after } })
                  ∧ (r.target = 0 → r.origin = .application →
                      Gives (.transmissionSent [] .recessive) s
                        ({ t with
                            req :=
                              { s.req with
                                list :=
                                  before
                                    ++ { r with
                                          attempts := r.attempts + 1
                                          state := .answered
                                          outcome := some .broadcastSent
                                          content := .nothing }
                                      :: after } }.withEvent
                          .request 9 r.tag 0 0)))
      ∧ ∀ c, x.kind = .slotFrame → s.ctl.state = .leaving → (s.slotAt x.slot).state = .owned c → x.request = none →
          (2 ≤ s.ownedCount →
              Gives (.transmissionSent [] .recessive) s
                { passed with
                  line := line
                  pub := { s.pub with answers := answers }
                  slot :=
                    { passed.slot with
                      map := s.slot.map.modify x.slot fun r => { r with state := .free, ownerHeard := false } } })
            ∧ (s.ownedCount = 1 →
                Leads (.transmissionSent [] .recessive) s fun t =>
                  t.ctl.state = .off ∧ t.ctl.cond.leaving = false ∧ t.ownedCount = 0 ∧ t.line.tx = none
                    ∧ s.takesEvents t (fun es =>
                        { passed with line := line }.entersOff t es
                          ∧ ofKind .station es = [⟨.station, 1, s.ctl.config.station, 6, 0, s.slot.round⟩])
                    ∧ t.line.sequence = s.line.sequence + 1 ∧ t.pub.answers = []
                    ∧ ((∀ e ∈ s.image, e.watch = none) → s.req.list = [] → s.collectorFree → s.host.events.length < 32 →
                        t.host.events
                          = s.host.events ++ [⟨.station, 1, s.ctl.config.station, 6, 0, s.slot.round⟩]))

/-- The report of a LOST frame to the slot unit. A claim ends: its record is HEARD by a winner that is known, or FREE and marked with
activity, this round or, when its slot has ended since, last round, with SLOT CLAIM_FAILED (R31). A slot frame of a MEMBER raises the clash
count; at the second loss the record goes the same way with SLOT LOST, and the last one takes the station back to CLAIMING (R33, R48). In
LEAVING the record is FREE with no event, and the last one takes the station to OFF, every block as entering OFF leaves it (R36, R51, R52).
A report whose record is in another state changes nothing (R35). An ABANDONED frame's report changes no record, but in LEAVING frees it as a
LOST one's does (R32, R34, R36). The answer a LOST or ABANDONED frame carried stays in its queue and its request WAITING with its attempts,
as every other, but where the report enters OFF (R75, R136). The winner is known from a GOOD arrival of that slot and another station. (A
winner PRESENT already, or passed over as this station's own, is the form stated whole.) -/
def Obligations.LostFramesAreReported : Prop :=
  ∀ (s : State) (x : Transmission) (cls : ArrivalClass) (frame : Option Frame),
    let t := reportToSlots x (.lost cls frame) s
    let st := (s.slotAt x.slot).state
    let unknown := cls ≠ .good ∨ ∀ f, frame = some f → f.slot ≠ x.slot ∨ f.source = s.ctl.config.station
    let known (n : Nat) := cls = .good ∧ ∃ f, frame = some f ∧ f.slot = x.slot ∧ f.source = n ∧ n ≠ s.ctl.config.station
    let freed (y : State) : State :=
      { y with
        slot :=
          { y.slot with
            map := y.slot.map.modify x.slot fun r =>
              if x.slotEnded then { r with state := .free, ownerHeard := false, activityLast := true }
              else { r with state := .free, ownerHeard := false, activityThis := true } } }
    let taken (n : Nat) (y : State) : State :=
      { y with
        slot :=
          { y.slot with map := y.slot.map.modify x.slot fun r => { r with state := .heard n 0, ownerHeard := true } }
        peers := y.peers.modify (n - 1) fun p => { p with heardSlots := p.heardSlots + 1 } }
    let event (code n : Nat) (v : Word) (y : State) : State :=
      { y with raised := y.raised ++ [⟨.slot, code, x.slot, n, v, s.slot.round⟩] }
    let joined (n : Nat) := 1 ≤ n ∧ 1 ≤ (s.peer n).heardSlots
    (∀ c, x.kind = .claimFrame → st = .claiming c →
        (unknown → t = event 3 0 1 (freed s)) ∧ ∀ n, known n → joined n → t = event 3 n 1 (taken n s))
      ∧ (∀ c, x.kind = .slotFrame → st = .owned c → s.ctl.state = .member →
          (c = 0 → t = { s with slot := { s.slot with map := s.slot.map.modify x.slot fun r => { r with state := .owned 1 } } })
            ∧ (c ≠ 0 → 2 ≤ s.ownedCount →
                (unknown → t = event 2 0 (BitVec.ofNat 32 (s.ownedCount - 1)) (freed s))
                  ∧ ∀ n, known n → joined n → t = event 2 n (BitVec.ofNat 32 (s.ownedCount - 1)) (taken n s))
            ∧ (c ≠ 0 → s.ownedCount = 1 →
                let back (y : State) : State :=
                  { y with
                    ctl := { s.ctl with state := .claiming }
                    raised := y.raised ++ [⟨.station, 1, s.ctl.config.station, 4, 2, s.slot.round⟩] }
                (unknown → t = back (event 2 0 0 (freed s))) ∧ ∀ n, known n → joined n → t = back (event 2 n 0 (taken n s))))
      ∧ (∀ c, x.kind = .slotFrame → st = .owned c → s.ctl.state = .leaving → 2 ≤ s.ownedCount →
          t = { s with
                slot :=
                  { s.slot with map := s.slot.map.modify x.slot fun r => { r with state := .free, ownerHeard := false } } })
      ∧ (∀ c, x.kind = .slotFrame → st = .owned c → s.ctl.state = .leaving → s.ownedCount = 1 →
          t.ctl.state = .off
            ∧ ∃ es, t.raised = s.raised ++ es ∧ s.entersOff t es
                ∧ ofKind .station es = [⟨.station, 1, s.ctl.config.station, 6, 0, s.slot.round⟩])
      ∧ ((x.kind = .claimFrame → st.isClaiming = false) → (x.kind = .slotFrame → st.isOwned = false) → t = s)
      ∧ reportEnd x (.lost cls frame) s = t
      ∧ (s.ctl.state ≠ .leaving → t.pub = s.pub ∧ t.req = s.req)
      ∧ (x.kind = .claimFrame ∨ st.isOwned = false ∨ s.ctl.state ≠ .leaving → reportEnd x .abandoned s = s)
      ∧ (x.kind = .slotFrame → st.isOwned = true → s.ctl.state = .leaving → reportEnd x .abandoned s = t)

/-- HOLD_BEGIN, at a dominant run's twenty-first bit time: the hold is counted and raises its event, the arrival in progress and the frame
end, and every CLAIMING record is FREE, its owner-heard flag clear, each with SLOT CLAIM_FAILED, cause HOLD, lowest slot first; every other
record stays, an OWNED one whose frame the hold ends with its clash count (outside LEAVING), and so do the answers and the requests; a
shorter run, or one during a hold, begins none (R13, R14, R32, R34, R37, R75, R136). HOLD_END, at the 1024th recessive bit time, ends the
hold with its event; a shorter run does not, and a dominant level starts the measure again (R15). -/
def Obligations.HoldsBeginAndEnd : Prop :=
  (∀ s : State, s.midSlot →
    (s.noHold .dominant → s.txeOn = false → (s.heard .dominant).ended = false →
        Gives (.holdBegin [] .dominant) s
          { s.afterBit .dominant with line := { s.line.measure .dominant with receiver := s.heard .dominant } })
      ∧ (s.line.rxd = .dominant → 20 ≤ s.line.run → s.line.hold = false →
          (Leads (.holdBegin [] .dominant) s fun t =>
              t.line.hold = true ∧ t.line.holds = satInc s.line.holds ∧ t.line.tx = none ∧ t.line.receiver = .waiting
                ∧ t.claimingCount = 0 ∧ t.line.rxd = .dominant ∧ t.line.run = s.line.run + 1
                ∧ (∀ r, s.line.receiver = .inside r → r.own = false → t.line.format = satInc s.line.format))
            ∧ (s.line.lost = [] → s.ctl.state ≠ .leaving →
                Leads (.holdBegin [] .dominant) s fun t =>
                  (∀ k, let r := s.slotAt k
                    let q := t.slotAt k
                    (r.state.isClaiming = true → q.state = .free ∧ q.ownerHeard = false ∧ q.activityLast = r.activityLast)
                      ∧ (r.state.isClaiming = false →
                          q.state = r.state ∧ q.ownerHeard = r.ownerHeard ∧ q.activityLast = r.activityLast))
                    ∧ t.ctl = s.ctl ∧ t.peers = s.peers ∧ t.image = s.image ∧ t.pub = s.pub ∧ t.req = s.req
                    ∧ s.takesEvents t fun es =>
                        ofKind .station es = [⟨.station, 4, s.ctl.config.station, 0, 0, s.slot.round⟩]
                          ∧ ofKind .slot es
                            = ((List.range s.slot.map.length).filter fun k => (s.slotAt k).state.isClaiming).map
                                fun k => ⟨.slot, 3, k, 0, 2, s.slot.round⟩)
            ∧ (s.line.receiver = .waiting → s.line.tx = none → s.claimingCount = 0 →
                Gives (.holdBegin [] .dominant) s
                  ({ s.afterBit .dominant with
                      line := { s.line.measure .dominant with hold := true, holds := satInc s.line.holds } }.withEvent
                    .station 4 s.ctl.config.station 0 0))))
    ∧ ∀ s : State, s.midSlot → s.line.hold = true → s.line.receiver = .waiting → s.line.tx = none →
        (s.line.rxd = .recessive → 1023 ≤ s.line.run →
            Gives (.holdEnd [] .recessive) s
              ({ s.afterBit .recessive with line := { s.line.measure .recessive with hold := false } }.withEvent
                .station 5 s.ctl.config.station 0 0))
          ∧ (s.line.rxd = .dominant ∨ s.line.run < 1023 →
              Gives (.holdEnd [] .recessive) s (s.afterBit .recessive))
          ∧ Gives (.holdEnd [] .dominant) s (s.afterBit .dominant)
          ∧ (s.line.rxd = .recessive → (s.line.measure .dominant).rxd = .dominant ∧ (s.line.measure .dominant).run = 1)

/-- An arrival's end, 12 recessive bit times after a stop bit: this station's own arrival gives activity only; any other is counted by its
class, gives activity to its slot, a PLAN_MISMATCH sets the sender's sticky fault with its event, and a GOOD frame under this station's own
number does nothing more (R2, R9, R11, R12, R13, R85). An arrival that is not GOOD, of any of the three classes, or GOOD under this
station's own number, and ends a claim of this station that was LOST, leaves the record FREE with activity, with SLOT CLAIM_FAILED, and does
the rest of its class too; one that ends a LOST slot frame of a MEMBER raises the clash count, and at the second loss frees the record with
SLOT LOST, the last one taking the station back to CLAIMING (R21, R31, R33, R48). -/
def Obligations.ArrivalsAreClassedAndCounted : Prop :=
  ∀ (s : State) (r : Reception), s.midSlot → s.txeOn = false → s.line.hold = false → s.line.receiver = .inside r → r.almostEnded →
    let c := r.classified s.ctl.config
    let row := Instr.arrivalEnd [] .recessive
    let later := s.afterBit .recessive
    let marked (slot : Option Nat) : State :=
      { later with
        line := { later.line with receiver := .waiting }
        slot :=
          match slot with
          | some j =>
            if s.ctl.state = .off then later.slot
            else { later.slot with map := s.slot.map.modify j fun q => { q with activityThis := true } }
          | none => later.slot }
    let counted (t : State) (line : LineUnit) : State := { t with line := line }
    (r.own = true → Gives row s (marked (match c.1, c.2 with | .good, some f => some f.slot | _, _ => r.slot)))
      ∧ (r.own = false → s.line.lost = [] →
          let t := marked r.slot
          (c.1 = .badCrc → Gives row s (counted t { t.line with badCrc := satInc t.line.badCrc }))
            ∧ (c.1 = .format → Gives row s (counted t { t.line with format := satInc t.line.format }))
            ∧ (∀ f, c = (.good, some f) → f.source = s.ctl.config.station →
                Gives row s (counted (marked (some f.slot)) { t.line with good := satInc t.line.good }))
            ∧ ∀ f, c = (.planMismatch, some f) →
                let u := counted t { t.line with planMismatch := satInc t.line.planMismatch }
                let p := s.peer f.source
                (s.ctl.state = .off ∨ f.source = s.ctl.config.station ∨ p.faults.planMismatch = true → Gives row s u)
                  ∧ (s.ctl.state ≠ .off → f.source ≠ s.ctl.config.station → f.source ≤ s.peers.length →
                      p.faults.planMismatch = false →
                      Gives row s
                        ({ u with
                            peers := s.peers.modify (f.source - 1) fun q =>
                              { q with faults := { q.faults with planMismatch := true } } }.withEvent
                          .peer 4 f.source 1
                          (1 + (if p.faults.layoutMismatch then 2 else 0) + (if p.faults.catalogueConflict then 4 else 0)))))
      ∧ (∀ (x : Transmission) (n : Nat), r.own = false → s.line.lost = [x] → s.ctl.state ≠ .off →
          x.kind = .claimFrame → (s.slotAt x.slot).state = .claiming n →
          let t := marked r.slot
          let freedOf (t : State) (line : LineUnit) : State :=
            { t with
              line := { line with lost := [] }
              slot :=
                { t.slot with
                  map := t.slot.map.modify x.slot fun q =>
                    if x.slotEnded then { q with state := .free, ownerHeard := false, activityLast := true }
                    else { q with state := .free, ownerHeard := false, activityThis := true } } }
          let freed := freedOf t
          (∀ f, c = (.good, some f) → f.source = s.ctl.config.station →
              let t := marked (some f.slot)
              Gives row s ((freedOf t { t.line with good := satInc t.line.good }).withEvent .slot 3 x.slot 0 1))
            ∧ (c.1 = .badCrc →
              Gives row s ((freed { t.line with badCrc := satInc t.line.badCrc }).withEvent .slot 3 x.slot 0 1))
            ∧ (c.1 = .format →
                Gives row s ((freed { t.line with format := satInc t.line.format }).withEvent .slot 3 x.slot 0 1))
            ∧ ∀ f, c = (.planMismatch, some f) →
                let u := freed { t.line with planMismatch := satInc t.line.planMismatch }
                let p := s.peer f.source
                (f.source = s.ctl.config.station ∨ p.faults.planMismatch = true →
                    Gives row s (u.withEvent .slot 3 x.slot 0 1))
                  ∧ (f.source ≠ s.ctl.config.station → f.source ≤ s.peers.length → p.faults.planMismatch = false →
                      s.host.events.length ≤ 30 →
                      Leads row s fun v =>
                        let fault : EventRecord :=
                          ⟨.peer, 4, f.source, 1,
                            1 + (if p.faults.layoutMismatch then 2 else 0) + (if p.faults.catalogueConflict then 4 else 0),
                            s.slot.round⟩
                        let failed : EventRecord := ⟨.slot, 3, x.slot, 0, 1, s.slot.round⟩
                        v.line = u.line ∧ v.slot = u.slot ∧ v.ctl = s.ctl ∧ v.image = s.image ∧ v.req = s.req
                          ∧ v.peers = s.peers.modify (f.source - 1) (fun q =>
                              { q with faults := { q.faults with planMismatch := true } })
                          ∧ (v.host.events = s.host.events ++ [fault, failed]
                              ∨ v.host.events = s.host.events ++ [failed, fault])))
      ∧ ∀ (x : Transmission) (n : Nat), r.own = false → s.line.lost = [x] → s.ctl.state = .member →
          x.kind = .slotFrame → (s.slotAt x.slot).state = .owned n → (∀ f, c = (.good, some f) → f.source = s.ctl.config.station) →
          (∀ f, c = (.planMismatch, some f) → f.source ≤ s.peers.length) →
          let t := marked (match c.1, c.2 with | .good, some f => some f.slot | _, _ => r.slot)
          let line : LineUnit :=
            match c.1 with
            | .badCrc => { t.line with badCrc := satInc t.line.badCrc, lost := [] }
            | .format => { t.line with format := satInc t.line.format, lost := [] }
            | .planMismatch => { t.line with planMismatch := satInc t.line.planMismatch, lost := [] }
            | .good => { t.line with good := satInc t.line.good, lost := [] }
          let blamed : Option Nat :=
            match c.1, c.2 with
            | .planMismatch, some f =>
              if f.source = s.ctl.config.station ∨ (s.peer f.source).faults.planMismatch = true then none else some f.source
            | _, _ => none
          let faulty : State :=
            match blamed with
            | some m =>
              { t with
                line := line
                peers := s.peers.modify (m - 1) fun q => { q with faults := { q.faults with planMismatch := true } } }
            | none => { t with line := line }
          let faults : List EventRecord :=
            blamed.toList.map fun m =>
              let p := s.peer m
              ⟨.peer, 4, m, 1,
                1 + (if p.faults.layoutMismatch then 2 else 0) + (if p.faults.catalogueConflict then 4 else 0), s.slot.round⟩
          let reported (record : SlotRecord → SlotRecord) (ctl : StationControl) (slots stations : List EventRecord) : Prop :=
            Leads row s fun v =>
              { v with host := s.host }.visible
                  = { faulty with ctl := ctl, slot := { t.slot with map := t.slot.map.modify x.slot record } }.visible
                ∧ s.takesEvents v fun es =>
                    ofKind .peer es = faults ∧ ofKind .slot es = slots ∧ ofKind .station es = stations
                      ∧ es.length = faults.length + slots.length + stations.length
          let freed (q : SlotRecord) : SlotRecord :=
            if x.slotEnded then { q with state := .free, ownerHeard := false, activityLast := true }
            else { q with state := .free, ownerHeard := false, activityThis := true }
          let lost : EventRecord := ⟨.slot, 2, x.slot, 0, BitVec.ofNat 32 (s.ownedCount - 1), s.slot.round⟩
          (n = 0 → reported (fun q => { q with state := .owned 1 }) s.ctl [] [])
            ∧ (n ≠ 0 → 2 ≤ s.ownedCount → reported freed s.ctl [lost] [])
            ∧ (n ≠ 0 → s.ownedCount = 1 →
                reported freed { s.ctl with state := .claiming } [lost]
                  [⟨.station, 1, s.ctl.config.station, 4, 2, s.slot.round⟩])

/-- A GOOD arrival from another station, while no frame is being sent. It is counted; the record of its slot is HEARD by the sender, or FREE
for a slot frame carrying LEAVING, while a CLAIMING or OWNED record stays and is counted out of step; the peer's sequence is taken, and
stands unless the frame carries LEAVING; the slot counter and the timer are aligned to it, but where a frame stands assembled, and a forward
wrap counts a round boundary too (outside LEAVING, which that boundary may end) (R13, R17, R18, R24, R25, R26, R83; the timer of an arrival
with gaps between its bytes, log 9). Outside a wrap every block takes its part of it (R12), also where it is the winner's arrival of LOST
transmissions, whose reports follow the slot map's taking (R21, R24, R31, R33): station control, peers and slot map as peerArrival,
mapArrival and those reports leave them, which PeersBecomePresentAndAreChecked, CataloguesConflictAndComplete and LostFramesAreReported say;
entries, watches and units as the value arrival of ValueArrivalsReachTheEntries leaves them, before the slot map's taking, between it and
the reports, or after both; the request list as AnswersAreTaken says, before or after the slot map's taking; answers and publish table as
RequestsOfPeersAreServed says. The frame's verdict is R94's. (That the peer unit comes first, log 7, and the reports after it and the slot
map, log 32, are the model's orders; the others are free, log 5.) In a forward wrap the report of a LOST transmission, its SLOT event with
its winner and the record HEARD by it, comes before or after the boundary. -/
def Obligations.GoodArrivalIsTaken : Prop :=
  ∀ (s : State) (r : Reception) (f : Frame), s.midSlot → s.ctl.state ≠ .off → s.line.hold = false →
    s.line.receiver = .inside r → r.own = false → r.almostEnded → s.txeOn = false →
    r.classified s.ctl.config = (.good, some f) → f.source ≠ s.ctl.config.station → s.peers.length = 32 →
    s.slot.map.length = s.ctl.config.slots →
    let row := Instr.arrivalEnd [] .recessive
    let adopted := s.line.tx = none
    let aligned (u : SlotUnit) : SlotUnit :=
      if adopted then { u with counter := f.slot, timer := 16 + BitVec.ofNat 10 (10 * r.bytes.length + 12) } else u
    let wrap := adopted ∧ f.slot < s.slot.counter ∧ s.ctl.config.slots < 2 * (s.slot.counter - f.slot)
    let line : LineUnit := { s.line.measure .recessive with receiver := .waiting, good := satInc s.line.good, lost := [] }
    (s.line.lost = [] →
      Leads row s fun t =>
        t.line = { line with tx := t.line.tx }
          ∧ (wrap → t.slot.round = s.slot.round + 1)
          ∧ (wrap → s.ctl.state ≠ .leaving →
              aligned t.slot = t.slot
                ∧ ((s.slotAt f.slot).state.owner?.isSome = true → f.kind = .claimFrame ∨ f.cond.leaving = false →
                    (t.slotAt f.slot).state = .heard f.source 0 ∧ (t.slotAt f.slot).ownerHeard = true
                      ∧ (t.slotAt f.slot).activityThis = true)
                ∧ ((s.slotAt f.slot).state.isOwned = true → (t.slotAt f.slot).state = (s.slotAt f.slot).state
                    ∧ t.slot.outOfStep = satInc s.slot.outOfStep))
          ∧ (¬wrap →
              t.slot.round = s.slot.round ∧ t.ctl.state = s.ctl.state
                ∧ (f.kind = .claimFrame ∨ f.cond.leaving = false → (t.peer f.source).lastSequence = some f.sequence)
                ∧ aligned t.slot = t.slot
                ∧ (adopted ∨ t.slot.counter = s.slot.counter ∧ t.slot.timer = s.slot.timer + 1)
                ∧ (t.slotAt f.slot).activityThis = true
                ∧ ((s.slotAt f.slot).state.isOwned = false → (s.slotAt f.slot).state.isClaiming = false →
                    (f.kind = .slotFrame → f.cond.leaving = true →
                        (t.slotAt f.slot).state = .free ∧ (t.slotAt f.slot).ownerHeard = false)
                      ∧ (f.kind = .claimFrame ∨ f.cond.leaving = false →
                          (t.slotAt f.slot).state = .heard f.source 0 ∧ (t.slotAt f.slot).ownerHeard = true))
                ∧ ((s.slotAt f.slot).state.isOwned = true ∨ (s.slotAt f.slot).state.isClaiming = true →
                    (t.slotAt f.slot).state = (s.slotAt f.slot).state ∧ t.slot.outOfStep = satInc s.slot.outOfStep)))
      ∧ (¬wrap →
          let p := s.peer f.source
          let verdict : Verdict :=
            match f.kind, p.catalogue, p.layout with
            | .slotFrame, .known, some l => if f.data.length = (l.bits + 7) / 8 then .agree else .mismatch
            | _, _, _ => .noVerdict
          let winner := s.line.lost.any fun x => x.slot == f.slot
          let map := mapArrival f winner
          let reports (y : State) : State := s.line.lost.foldl (fun y x => reportEnd x (.lost .good (some f)) y) y
          let values := imageArrival f verdict
          let answered (y : State) : State :=
            match f.answer with
            | some a => answerArrival f.source a y
            | none => y
          let asked (y : State) : State :=
            match f.request with
            | some q => requestArrival f.source q y
            | none => y
          let later := s.afterBit .recessive
          let taken := peerArrival f
            { later with
              inArrival := true
              line := { later.line with receiver := .waiting, good := satInc s.line.good, lost := [] }
              slot := { later.slot with map := s.slot.map.modify f.slot fun q => { q with activityThis := true } } }
          let n := reports (map taken)
          (n.ctl.state ≠ .off →
              Leads row s fun t =>
                t.ctl = n.ctl ∧ t.peers = n.peers ∧ t.slot = aligned n.slot ∧ t.line = { line with tx := s.line.tx }
                  ∧ t.pub = (asked n).pub ∧ t.serial = (asked n).serial ∧ t.trig = s.trig ∧ t.due = Due.none
                  ∧ ∃ v w : State,
                      (v = values (reports (map taken)) ∨ v = reports (values (map taken)) ∨ v = reports (map (values taken)))
                        ∧ (w = answered (map taken) ∨ w = map (answered taken))
                        ∧ t.image = v.image ∧ t.unitA = { v.unitA with passOver := false }
                        ∧ t.unitB = { v.unitB with passOver := false } ∧ t.called = v.called ∧ t.began = v.began
                        ∧ t.req = w.req
                        ∧ s.takesEvents t fun es =>
                            (∀ kind ∈ [EventKind.peer, .slot, .station], ofKind kind es = ofKind kind n.raised)
                              ∧ (∀ kind ∈ [EventKind.entry, .watch, .snapshot], ofKind kind es = ofKind kind v.raised)
                              ∧ ofKind .request es = ofKind .request w.raised
                              ∧ ofKind .peerWrite es = ofKind .peerWrite (asked n).raised)
            ∧ (n.ctl.state = .off →
                Leads row s fun t =>
                  t.ctl = n.ctl ∧ t.peers = n.peers ∧ t.slot = n.slot ∧ t.line.tx = none ∧ t.line.lost = []
                    ∧ s.takesEvents t fun es => ofKind .station es = ofKind .station n.raised))
      ∧ ∀ x : Transmission, wrap → s.line.lost = [x] → s.ctl.state = .claiming ∨ s.ctl.state = .member →
          let winner := if x.slot = f.slot then f.source else 0
          let reported (code : Nat) (v : Word) : Prop :=
            Leads row s fun t =>
              t.line.lost = [] ∧ t.slot.round = s.slot.round + 1
                ∧ (x.slot = f.slot → (t.slotAt x.slot).state = .heard f.source 0)
                ∧ s.takesEvents t fun es =>
                    ⟨.slot, code, x.slot, winner, v, s.slot.round⟩ ∈ es ∨ ⟨.slot, code, x.slot, winner, v, s.slot.round + 1⟩ ∈ es
          (∀ k, x.kind = .claimFrame → (s.slotAt x.slot).state = .claiming k → reported 3 1)
            ∧ ∀ k, x.kind = .slotFrame → (s.slotAt x.slot).state = .owned k → s.ctl.state = .member →
                (k ≠ 0 → reported 2 (BitVec.ofNat 32 (s.ownedCount - 1)))
                  ∧ (k = 0 → Leads row s fun t => t.line.lost = [] ∧ (t.slotAt x.slot).state = .owned 1)

/-- A value arrival: with the verdict AGREE, each WAITING, FRESH or STALE entry of the sender takes the number its layout places in the data
section, FRESH with age 0 and one update more, its watch placed on that value, with ENTRY FRESH where it was WAITING or STALE; or a FRESH or
WAITING one becomes STALE, with its fallback presented and evaluated and ENTRY STALE_HOST_LOST, when the frame carries HOST_LOST; other
entries stay, and without AGREE, in a claim frame or one carrying LEAVING no entry changes (R105, R106, R107, R113, R115, R119, R121). -/
def Obligations.ValueArrivalsReachTheEntries : Prop :=
  ∀ (s : State) (f : Frame) (v : Verdict),
    (s.ctl.state = .off ∨ f.kind = .claimFrame ∨ f.cond.leaving = true ∨ v ≠ .agree → imageArrival f v s = s)
      ∧ (s.ctl.state ≠ .off → f.kind = .slotFrame → f.cond.leaving = false →
          (∀ i, let e := s.entry i
            let t := (imageArrival f .agree s).entry i
            (e.source = f.source → e.state.served = true → f.cond.hostLost = false → ∀ l, e.layout = some l →
                let v := readPoint f.data l
                t = { e with
                  state := .fresh, value := v, age := 0, updates := satInc e.updates
                  watch := e.watch.map fun w => { w with zone := w.place l.format v } })
              ∧ (e.source = f.source → e.state.served = true → f.cond.hostLost = true →
                  t = if e.state = .stale then e else e.passed .stale)
              ∧ (e.source ≠ f.source ∨ e.state.served = false → t = e))
            ∧ ofKind .entry (imageArrival f .agree s).raised
              = ofKind .entry s.raised
                ++ if f.cond.hostLost then
                    s.passages (fun e => e.source = f.source ∧ (e.state = .fresh ∨ e.state = .waiting)) 3 .stale
                  else
                    (List.range s.image.length).filterMap fun i =>
                      let e := s.entry i
                      e.layout.bind fun l =>
                        if e.source = f.source ∧ (e.state = .waiting ∨ e.state = .stale) then
                          some ⟨.entry, 1, i, e.state.code, readPoint f.data l, s.slot.round⟩
                        else none)

/-- An answer section for this station: it ends the application record it matches in target, tag, kind and index, SENT or sent at least
once; with no match the late answers are counted; one for another station changes nothing (R139, R140). A READ_ENTRY answer is learned by a
FETCHING peer that it does not contradict, and completes its catalogue only when every place below the count holds a shape (R87, R89). The
discovery record for that peer leaves the list when what is learned settles it, its place holding a shape or lying at the count or beyond,
but not by its own answer (R92). -/
def Obligations.AnswersAreTaken : Prop :=
  (∀ (s : State) (n : Nat) (a : AnswerSection),
    let fitting (r : RequestRecord) : Prop :=
      r.target = n ∧ r.tag = a.tag ∧ r.kind = a.kind ∧ r.index = a.index
        ∧ (r.state = .sent ∨ (r.state = .waiting ∧ 1 ≤ r.attempts))
    (a.requester ≠ s.ctl.config.station → answerArrival n a s = s)
      ∧ (a.requester = s.ctl.config.station → (∀ r ∈ s.req.list, ¬fitting r) →
          answerArrival n a s = { s with req := { s.req with lateAnswers := satInc s.req.lateAnswers } })
      ∧ ∀ (before after : List RequestRecord) (r : RequestRecord), a.requester = s.ctl.config.station →
          s.req.list = before ++ r :: after → fitting r → (∀ q ∈ before, ¬fitting q) →
          (∀ q ∈ before ++ after, q.id ≠ r.id) →
          (r.origin = .discovery →
              answerArrival n a s
                = { s with
                    req :=
                      { s.req with
                        list := (before ++ after).map fun q =>
                          if q.predecessor = some r.id then { q with predecessor := none } else q } })
            ∧ (r.origin = .application → answerArrival n a s = endRecord r.id (.answer a.outcome) a.content s)
            ∧ (r.origin = .application → (∀ q ∈ before ++ r :: after, q.predecessor = some r.id → q.state ≠ .waiting) →
                answerArrival n a s
                  = { s with
                      req :=
                        { s.req with
                          list :=
                            before
                              ++ { r with state := .answered, outcome := some (.answer a.outcome), content := a.content }
                                :: after }
                      raised :=
                        s.raised ++ [⟨.request, a.outcome.code, r.tag, r.target, a.content.eventValue, s.slot.round⟩] }))
    ∧ (∀ (s : State) (n : Nat) (a : AnswerSection) (d : Descriptor), 1 ≤ n → n ≤ s.peers.length → n ≠ s.ctl.config.station →
        (s.peer n).catalogue = .fetching → (s.peer n).shapes.length = 32 → a.index ≤ 31 → a.content = .descriptor d →
        (s.peer n).shapeAt a.index = none → (∀ c, (s.peer n).count = some c → a.index < c) →
        (∃ i, i < (s.peer n).count.getD 32 ∧ i ≠ a.index ∧ (s.peer n).shapeAt i = none) →
        (∀ r ∈ s.req.list, r.origin = .application) →
        learnAnswer n a none s
          = { s with
              peers := s.peers.modify (n - 1) fun p =>
                { p with shapes := p.shapes.set a.index (some ⟨d.width, d.format, d.direction⟩) } })
    ∧ ∀ (s : State) (n : Nat) (a : AnswerSection) (own : Option Nat) (before after : List RequestRecord) (r : RequestRecord),
        1 ≤ n → n ≤ s.peers.length → n ≠ s.ctl.config.station → (s.peer n).catalogue = .fetching →
        (s.peer n).shapes.length = 32 → a.index ≤ 31 → s.req.list = before ++ r :: after → r.origin = .discovery →
        r.target = n → (∀ q ∈ before ++ after, q.id ≠ r.id ∧ ¬(q.origin = .discovery ∧ q.target = n)) →
        let p := s.peer n
        let learned (f : PeerRecord → PeerRecord) : State := { s with peers := s.peers.modify (n - 1) f }
        let gone (t : State) : State :=
          { t with
            req :=
              { s.req with
                list := (before ++ after).map fun q =>
                  if q.predecessor = some r.id then { q with predecessor := none } else q } }
        let judged (settled : Prop) (t : State) : Prop :=
          (settled → own ≠ some r.id → learnAnswer n a own s = gone t) ∧ (¬settled ∨ own = some r.id → learnAnswer n a own s = t)
        (∀ d, a.content = .descriptor d → p.shapeAt a.index = none → (∀ c, p.count = some c → a.index < c) →
            (∃ i, i < p.count.getD 32 ∧ i ≠ a.index ∧ p.shapeAt i = none) →
            judged (r.index = a.index ∨ (p.shapeAt r.index).isSome = true ∨ ∃ c, p.count = some c ∧ c ≤ r.index)
              (learned fun q => { q with shapes := q.shapes.set a.index (some ⟨d.width, d.format, d.direction⟩) }))
          ∧ ∀ c, a.content = .count c → p.count = none → (∀ i, i < 32 → c ≤ i → p.shapeAt i = none) →
              (∃ i, i < c ∧ p.shapeAt i = none) →
              judged ((p.shapeAt r.index).isSome = true ∨ c ≤ r.index) (learned fun q => { q with count := some c })

/-- A peer's first slot heard makes it PRESENT, with its event, a FAILED catalogue returned to FETCHING and forgotten, its LOST entries and
those FAILED for want of the catalogue RESOLVING; where the catalogue is KNOWN already, its LOST and RESOLVING entries are judged at once,
in order of entry index (R80, R82, R103, R104, R110, R115). A slot frame whose data length is not that of the KNOWN layout clears the
catalogue, sets LAYOUT_MISMATCH and raises FAULT, when the fault was clear, and then LAYOUT_MISMATCH, and its entries are RESOLVING, each
with ENTRY RESOLVING (R85, R86, R94, R98, R111, R115, R121). Of a frame whose layout it does not find wrong, and which teaches it nothing,
the peer unit takes the sequence, a break in the run adding 1 to the frames missed, saturating at 255 (R83), and of a slot frame the
condition, with PEER CONDITION when it differs (R84); in OFF it takes nothing. -/
def Obligations.PeersBecomePresentAndAreChecked : Prop :=
  (∀ (s : State) (n : Nat), 1 ≤ n → n ≤ s.peers.length → n ≠ s.ctl.config.station → (s.peer n).heardSlots = 0 →
    (s.peer n).complete →
    let t := gainSlot n s
    let p := s.peer n
    let present : PeerRecord :=
      if p.catalogue = .failed then
        { p with
          presence := .present, heardSlots := 1, catalogue := .fetching, shapes := List.replicate 32 none, count := none
          layout := none }
      else { p with presence := .present, heardSlots := 1 }
    t.peers = s.peers.set (n - 1) present
      ∧ (p.catalogue ≠ .known →
          (∀ i, let e := s.entry i
            t.entry i =
              if e.source = n ∧ (e.state = .lost ∨ (p.catalogue = .failed ∧ e.state = .failed .noCatalogue)) then
                e.passed .resolving
              else e)
            ∧ ofKind .entry t.raised = ofKind .entry s.raised
            ∧ (s.collectorFree → t.raised = s.raised ++ [⟨.peer, 1, n, 0, 1, s.slot.round⟩]))
      ∧ (p.catalogue = .known → ∀ c l, p.count = some c → p.layout = some l →
          let again (e : ImageEntry) : ImageEntry := if e.state = .lost then e.passed .resolving else e
          let judged (e : ImageEntry) : ImageEntry :=
            if e.source = n ∧ (e.state = .lost ∨ e.state = .resolving) then (again e).resolved c p.shapes l.offsets else e
          let failures := (List.range s.image.length).filterMap fun i =>
            let e := s.entry i
            if e.source = n ∧ (e.state = .lost ∨ e.state = .resolving) then (again e).failure i (judged e).state s.slot.round else none
          t.image = s.image.map judged
            ∧ ofKind .entry t.raised = ofKind .entry s.raised ++ failures
            ∧ (s.collectorFree → t.raised = s.raised ++ ⟨.peer, 1, n, 0, 1, s.slot.round⟩ :: failures))
      ∧ ofKind .peer t.raised = ofKind .peer s.raised ++ [⟨.peer, 1, n, 0, 1, s.slot.round⟩]
      ∧ t.slot = s.slot ∧ t.ctl = s.ctl ∧ t.req = s.req ∧ t.pub = s.pub ∧ t.line = s.line)
    ∧ (∀ (s : State) (n : Nat) (f : Frame) (l : PeerLayout), 1 ≤ n → n ≤ s.peers.length → n ≠ s.ctl.config.station →
        f.kind = .slotFrame → (s.peer n).catalogue = .known → (s.peer n).layout = some l →
        let p := s.peer n
        let right := (l.bits + 7) / 8
        let cleared : PeerRecord :=
          { p with
            catalogue := .fetching, shapes := List.replicate 32 none, count := none, layout := none
            faults := { p.faults with layoutMismatch := true } }
        let sum : Word :=
          (if p.faults.planMismatch then 1 else 0) + 2 + (if p.faults.catalogueConflict then 4 else 0)
        let fault : List EventRecord :=
          if p.faults.layoutMismatch then [] else [⟨.peer, 4, n, 2, sum, s.slot.round⟩]
        (f.data.length = right → checkLayout n f s = s)
          ∧ (f.data.length ≠ right →
              (checkLayout n f s).peers = s.peers.set (n - 1) cleared
                ∧ (∀ i, let e := s.entry i
                    (checkLayout n f s).entry i = if e.source = n ∧ e.rests then e.passed .resolving else e)
                ∧ ofKind .entry (checkLayout n f s).raised
                  = ofKind .entry s.raised ++ s.passages (fun e => e.source = n ∧ e.rests) 8 .resolving
                ∧ ((∀ e ∈ s.image, e.source = n → e.state = .free ∨ e.state = .resolving) →
                    checkLayout n f s
                      = { s with
                          peers := s.peers.set (n - 1) cleared
                          raised :=
                            s.raised
                              ++ fault
                              ++ [⟨.peer, 7, n, f.data.length, BitVec.ofNat 32 right, s.slot.round⟩] })))
    ∧ ∀ (s : State) (f : Frame), 1 ≤ f.source → f.source ≤ s.peers.length → f.source ≠ s.ctl.config.station →
        (f.kind = .slotFrame → (s.peer f.source).catalogue = .known →
          ∀ l, (s.peer f.source).layout = some l → f.data.length = (l.bits + 7) / 8) →
        (∀ a, f.answer = some a → a.kind ≠ .readEntry) →
        let p := s.peer f.source
        let taken : PeerRecord :=
          { p with
            lastSequence := some f.sequence
            framesMissed := match p.lastSequence with
              | none => p.framesMissed
              | some last =>
                if f.sequence.toNat = (last.toNat + 1) % 256 ∨ p.framesMissed = 255 then p.framesMissed else p.framesMissed + 1
            lastCond := if f.kind = .slotFrame then f.cond else p.lastCond }
        (s.ctl.state = .off → peerArrival f s = s)
          ∧ (s.ctl.state ≠ .off →
              peerArrival f s
                = { s with
                    peers := s.peers.set (f.source - 1) taken
                    raised :=
                      s.raised
                        ++ if f.kind = .slotFrame ∧ f.cond ≠ p.lastCond then
                            [⟨.peer, 3, f.source, p.lastCond.code, BitVec.ofNat 32 f.cond.code, s.slot.round⟩]
                          else [] })

/-- Learning from answers. A KNOWN catalogue takes none, nor does this station's own number; an UNKNOWN or FAILED one is FETCHING first, a
FAILED one's entries RESOLVING again (R78, R87, R104). An answer that says what is held changes nothing (R87). Each of the four
contradictions, and a completion of more than 384 published bits, clears the catalogue, sets CATALOGUE_CONFLICT, with its event when it was
clear, makes the peer's entries RESOLVING, each with its event, and is learned into the empty catalogue, where a count of 0 completes at
once (R85, R86, R88, R89, R111). The last shape below the known count, the last of 32, or the count of the shapes held, completes the
catalogue: it is KNOWN, its published bits and offsets those of the PUBLISHED and BOTH shapes in order, with CATALOGUE_KNOWN, and each
RESOLVING entry of a peer that is PRESENT is WAITING with its point's offset, width and format, or FAILED with its event, in order of entry
index (R67, R87, R89, R103, R115, R121). -/
def Obligations.CataloguesConflictAndComplete : Prop :=
  (∀ (s : State) (n : Nat) (a : AnswerSection) (own : Option Nat),
    let fetching (p : PeerRecord) : PeerRecord := { p with catalogue := .fetching }
    ((s.peer n).catalogue = .known ∨ n = 0 ∨ n = s.ctl.config.station → learnAnswer n a own s = s)
      ∧ (1 ≤ n → n ≤ s.peers.length → n ≠ s.ctl.config.station →
          ((s.peer n).catalogue = .unknown →
              learnAnswer n a own s = learnAnswer n a own { s with peers := s.peers.modify (n - 1) fetching })
            ∧ ((s.peer n).catalogue = .failed → s.collectorFree →
                learnAnswer n a own s
                  = learnAnswer n a own
                      { s with
                        peers := s.peers.modify (n - 1) fetching
                        image := s.image.map fun e =>
                          if e.source = n ∧ e.state = .failed .noCatalogue then e.passed .resolving else e })))
    ∧ ∀ (s : State) (n : Nat) (a : AnswerSection), 1 ≤ n → n ≤ s.peers.length → n ≠ s.ctl.config.station →
    (s.peer n).catalogue = .fetching → (s.peer n).shapes.length = 32 → a.index ≤ 31 →
    (∀ r ∈ s.req.list, r.origin = .application) →
    let p := s.peer n
    let t := learnAnswer n a none s
    let alone := ∀ e ∈ s.image, e.source ≠ n
    let shapeOf (d : Descriptor) : Shape := ⟨d.width, d.format, d.direction⟩
    let complete (c : Nat) (shapes : List (Option Shape)) : Prop :=
      (p.count = some c ∨ (p.count = none ∧ c = 32)) ∧ c ≤ 32 ∧ ∀ i, i < c → (shapes.getD i none).isSome = true
    let incomplete (q : PeerRecord) : Prop := ∃ i, i < q.count.getD 32 ∧ q.shapeAt i = none
    let known (c : Nat) (shapes : List (Option Shape)) : Prop :=
      let judged (e : ImageEntry) : ImageEntry :=
        if e.source = n ∧ e.state = .resolving ∧ p.presence = .present then
          e.resolved c shapes (offsetsBelow c shapes)
        else e
      let failures := (List.range s.image.length).filterMap fun i =>
        let e := s.entry i
        if e.state = .resolving then e.failure i (judged e).state s.slot.round else none
      t.image = s.image.map judged
        ∧ (s.collectorFree ∨ alone →
            t = { s with
              image := s.image.map judged
              peers := s.peers.set (n - 1)
                { p with
                  catalogue := .known, count := some c, shapes := shapes
                  layout := some ⟨roomBelow c shapes, offsetsBelow c shapes⟩ }
              raised := s.raised ++ ⟨.peer, 5, n, c, BitVec.ofNat 32 (roomBelow c shapes), s.slot.round⟩ :: failures })
    let blank : PeerRecord :=
      { p with
        shapes := List.replicate 32 none, count := none, layout := none
        faults := { p.faults with catalogueConflict := true } }
    let fault : List EventRecord :=
      if p.faults.catalogueConflict then []
      else [⟨.peer, 4, n, 3, (if p.faults.planMismatch then 1 else 0) + (if p.faults.layoutMismatch then 2 else 0) + 4, s.slot.round⟩]
    let cleared (q : PeerRecord) : Prop :=
      t.peers = s.peers.set (n - 1) q
        ∧ (∀ i, let e := s.entry i
            t.entry i = if e.source = n ∧ e.rests then e.passed .resolving else e)
        ∧ ofKind .peer t.raised = ofKind .peer s.raised ++ fault
        ∧ ofKind .entry t.raised = ofKind .entry s.raised ++ s.passages (fun e => e.source = n ∧ e.rests) 8 .resolving
        ∧ (alone → t = { s with peers := s.peers.set (n - 1) q, raised := s.raised ++ fault })
    (∀ d, a.content = .descriptor d →
        let shapes := p.shapes.set a.index (some (shapeOf d))
        (p.shapeAt a.index = some (shapeOf d) → (∀ c, p.count = some c → a.index < c) → incomplete p → t = s)
          ∧ ((∃ old, p.shapeAt a.index = some old ∧ old ≠ shapeOf d) ∨ (∃ c, p.count = some c ∧ c ≤ a.index)
                ∨ (∃ c, complete c shapes ∧ 384 < roomBelow c shapes) →
              cleared { blank with shapes := blank.shapes.set a.index (some (shapeOf d)) })
          ∧ ∀ c, p.shapeAt a.index = none → a.index < c → complete c shapes → roomBelow c shapes ≤ 384 → known c shapes)
      ∧ ∀ c, a.content = .count c →
          let full := p.count = none ∧ c ≤ 32 ∧ ∀ i, i < 32 → ((p.shapeAt i).isSome = true ↔ i < c)
          (p.count = some c → (∀ i, i < 32 → c ≤ i → p.shapeAt i = none) → incomplete p → t = s)
            ∧ ((∃ old, p.count = some old ∧ old ≠ c) ∨ (∃ i, i < 32 ∧ c ≤ i ∧ (p.shapeAt i).isSome = true)
                  ∨ (full ∧ 384 < roomBelow c p.shapes) →
                (c ≠ 0 → cleared { blank with count := some c })
                  ∧ (c = 0 → alone →
                      t = { s with
                        peers := s.peers.set (n - 1) { blank with catalogue := .known, count := some 0, layout := some ⟨0, []⟩ }
                        raised := s.raised ++ fault ++ [⟨.peer, 5, n, 0, 0, s.slot.round⟩] }))
            ∧ (full → roomBelow c p.shapes ≤ 384 → known c p.shapes)

/-! ### Frames as bytes and levels -/

/-- A frame that a station may send, sent and received in a plan of the same SLOTS and rate, is GOOD and reads as the frame it was: no field
is dropped (R5, R6, R7, R9, R10). -/
def Obligations.FramesReadAsTheyWereSent : Prop :=
  ∀ (c : Configuration) (f : Frame), c.inRange → f.wellFormed c → classify c (frameBytes f) false = (.good, some f)

/-- A lost stop bit, or fewer than 10 or more than 96 bytes, is FORMAT; else bytes whose CRC is not that of the bytes before it are BAD_CRC,
the CRC having its check value (R7, R9). Of bytes with their CRC, those of which a condition of R10 holds, each written out here by the byte
it stands in and R6's table of contents, are FORMAT; the others are the bytes of a frame, PLAN_MISMATCH where its plan mark differs, and
only where the marks agree FORMAT for a slot of SLOTS or more, else GOOD (R5, R6, R9, R10). The plan mark is (SLOTS - 1) + 64 x rate code,
fits a byte, and tells two plans apart (R8). In arbitration a claim frame loses to a slot frame, and of two frames of one kind the higher
source number loses; no frame loses to itself (R3, R5). -/
def Obligations.CrcLengthPlanMarkAndArbitration : Prop :=
  ((crc [0x31, 0x32, 0x33, 0x34, 0x35, 0x36, 0x37, 0x38, 0x39] = 0x29B1
    ∧ ∀ (c : Configuration) (body : List Byte) (x y : Byte) (missing : Bool),
        (missing = true ∨ body.length < 8 ∨ 94 < body.length → (classify c (body ++ [x, y]) missing).1 = .format)
          ∧ (missing = false → 8 ≤ body.length → body.length ≤ 94 → crc body ≠ x ++ y →
              classify c (body ++ [x, y]) missing = (.badCrc, none)))
    ∧ (∀ (c : Configuration) (kind source slot plan sequence cond flags dataLength : Byte) (rest : List Byte) (x y : Byte),
        let body := kind :: source :: slot :: plan :: sequence :: cond :: flags :: dataLength :: rest
        let asks := flags.getLsbD 0 = true
        let answers := flags.getLsbD 1 = true
        let q (j : Nat) : Nat := (rest.getD j 0).toNat
        let asked := if asks then (if q 2 = 3 then 8 else 4) else 0
        let a (j : Nat) : Nat := q (asked + j)
        let content : Option Nat :=
          match a 2, a 4 with
          | 1, 0 => some (13 + a 16 + a (17 + a 16))
          | 1, 1 => some 1
          | 2, 0 => some 4
          | 2, 2 => some 0
          | 3, 0 => some 4
          | 3, 2 => some 0
          | 3, 3 => some 0
          | 3, 4 => some 4
          | _, _ => none
        let answered := if answers then 5 + content.getD 0 else 0
        let badRequest := asks ∧ (15 < q 0 ∨ 32 < q 1 ∨ q 2 = 0 ∨ 3 < q 2 ∨ 31 < q 3)
        let badAnswer := answers ∧ (15 < a 0 ∨ a 1 = 0 ∨ 32 < a 1 ∨ a 2 = 0 ∨ 3 < a 2 ∨ 31 < a 3 ∨ 4 < a 4 ∨ content = none
          ∨ (a 2 = 1 ∧ a 4 = 1 ∧ 32 < a 5))
        let badDescriptor := answers ∧ a 2 = 1 ∧ a 4 = 0
          ∧ ((a 5 ≠ 1 ∧ a 5 ≠ 8 ∧ a 5 ≠ 16 ∧ a 5 ≠ 32) ∨ 2 < a 6 ∨ (a 5 = 1 ∧ a 6 = 1) ∨ a 7 = 0 ∨ 3 < a 7 ∨ 8 < a 16 ∨ 4 < a (17 + a 16))
        let bad := (kind ≠ 0x30 ∧ kind ≠ 0x38) ∨ source = 0 ∨ 32 < source.toNat ∨ 7 < cond.toNat ∨ 3 < flags.toNat
          ∨ (kind = 0x38 ∧ (flags ≠ 0 ∨ dataLength ≠ 0)) ∨ 48 < dataLength.toNat ∨ badRequest ∨ badAnswer ∨ badDescriptor
          ∨ rest.length ≠ asked + answered + dataLength.toNat
        body.length ≤ 94 → crc body = x ++ y →
          (bad → classify c (body ++ [x, y]) false = (.format, none))
            ∧ (¬bad → ∃ f : Frame,
                frameBytes f = body ++ [x, y] ∧ f.source = source.toNat ∧ f.slot = slot.toNat ∧ f.plan = plan.toNat
                  ∧ classify c (body ++ [x, y]) false
                    = if plan.toNat ≠ c.planMark then (.planMismatch, some f)
                      else if c.slots ≤ slot.toNat then (.format, none)
                      else (.good, some f)))
    ∧ (∀ c d : Configuration, c.inRange → d.inRange →
    c.planMark = (c.slots - 1) + 64 * c.rate ∧ c.planMark ≤ 255
      ∧ (c.planMark = d.planMark ↔ c.slots = d.slots ∧ c.rate = d.rate)))
    ∧ (∀ f g : Frame, 1 ≤ f.source → f.source ≤ 32 → 1 ≤ g.source → g.source ≤ 32 →
    (f.kind = .claimFrame → g.kind = .slotFrame →
        losesTo (frameLevels (frameBytes f)) (frameLevels (frameBytes g)) = true
          ∧ losesTo (frameLevels (frameBytes g)) (frameLevels (frameBytes f)) = false)
      ∧ (f.kind = g.kind → g.source < f.source →
          losesTo (frameLevels (frameBytes f)) (frameLevels (frameBytes g)) = true
            ∧ losesTo (frameLevels (frameBytes g)) (frameLevels (frameBytes f)) = false)
      ∧ losesTo (frameLevels (frameBytes f)) (frameLevels (frameBytes f)) = false)

/-! ### Slot time -/

/-- END_OF_SLOT: the record's activity flags shift, a HEARD record without its owner's frame counts silence short of 3, the counter passes
on modulo SLOTS with the timer at 0, and the silence limit, the passage to slot 0 and the start of the slot become due (R16, R23, R27; what
is due, log 2). -/
def Obligations.EndOfSlotPassesOn : Prop :=
  ∀ (s : State) (level : Level), s.quiet → s.line.tx = none → s.line.hold = false → s.noHold level →
    (s.heard level).ended = false →
    let row := Instr.endOfSlot [] level
    let line : LineUnit := { s.line.measure level with receiver := s.heard level }
    let later : State := { s.afterBit level with line := line }
    (s.ctl.state = .off → Gives row s later)
      ∧ (s.ctl.state ≠ .off → s.slot.timer = 1023 →
          let k := s.slot.counter
          let next := (k + 1) % s.ctl.config.slots
          let r := s.slotAt k
          let shifted : SlotRecord := { r with activityLast := r.activityThis, activityThis := false }
          let passed (ended : SlotRecord) (silence : Option Nat) : State :=
            { later with
              line := { line with lost := s.line.lost.map fun x => if x.slot = k then { x with slotEnded := true } else x }
              slot := { s.slot with timer := 0, counter := next, map := s.slot.map.modify k fun _ => ended }
              due := { Due.none with silence := silence, boundary := next == 0, start := true } }
          (r.state.owner? = none → Gives row s (passed shifted none))
            ∧ ∀ o n, r.state = .heard o n →
                (r.ownerHeard = true → Gives row s (passed { shifted with ownerHeard := false } none))
                  ∧ (r.ownerHeard = false → n < 2 →
                      Gives row s (passed { shifted with state := .heard o (n + 1) } none))
                  ∧ (r.ownerHeard = false → 2 ≤ n → Gives row s (passed shifted (some k))))

/-- SILENCE_LIMIT: the record is FREE; its owner holds one slot less, and with the last one is ABSENT, with its event, its entries LOST,
each with ENTRY LOST, their fallbacks presented and their layouts given up, its discovery records removed, and its application records ended
(R27, R80, R81, R109, R115, R121). These end in list order, each FAILED with TARGET_GONE and its REQUEST event, and each end is judged for
its successors as it is made, as EndOfARecordJudgesItsSuccessors says (R133, R145; a record broken so before its own turn, log 29). -/
def Obligations.SilenceFreesTheRecord : Prop :=
  (∀ (s : State) (n : Nat), (s.req.list.map (·.id)).Nodup →
    let gone (r : RequestRecord) : Prop := r.origin = .application ∧ r.target = n ∧ (r.state = .waiting ∨ r.state = .sent)
    ((∀ r ∈ s.req.list, ¬gone r) → requestsAbsent n s = s)
      ∧ (∀ (before after : List RequestRecord) (r : RequestRecord), s.req.list = before ++ r :: after → gone r →
          (∀ q ∈ before, ¬gone q) → requestsAbsent n s = requestsAbsent n (endRecord r.id .targetGone .nothing s))
      ∧ ((∀ r ∈ s.req.list, r.predecessor = none) →
          requestsAbsent n s
            = { s with
                req :=
                  { s.req with
                    list := s.req.list.map fun r =>
                      if r.origin = .application ∧ r.target = n ∧ (r.state = .waiting ∨ r.state = .sent) then
                        { r with state := .failed, outcome := some .targetGone, content := .nothing }
                      else r }
                raised :=
                  s.raised
                    ++ (s.req.list.filter fun r =>
                          r.origin = .application ∧ r.target = n ∧ (r.state = .waiting ∨ r.state = .sent)).map
                        fun r => ⟨.request, 6, r.tag, r.target, 0, s.slot.round⟩ }))
    ∧ ∀ s : State, s.live → s.settled →
    (s.due.silence = none → Gives .silenceLimit s s)
      ∧ ∀ k o n, s.due.silence = some k → (s.slotAt k).state = .heard o n → (s.slotAt k).ownerHeard = false → 2 ≤ n →
          1 ≤ o → o ≤ s.peers.length → o ≠ s.ctl.config.station →
          let freed : State :=
            { s with
              due := { s.due with silence := none }
              slot := { s.slot with map := s.slot.map.modify k fun r => { r with state := .free, ownerHeard := false } } }
          let p := s.peer o
          let absent : PeerRecord :=
            { p with
              presence := .absent, heardSlots := 0, wentAbsent := true, lastSequence := none
              catalogue := if p.catalogue = .failed then .failed else .unknown
              shapes := List.replicate 32 none, count := none, layout := none }
          let kept : State :=
            { s with req := { s.req with list := s.req.list.filter fun r => !(r.origin == .discovery && r.target == o) } }
          (2 ≤ p.heardSlots →
              Gives .silenceLimit s
                { freed with peers := s.peers.modify (o - 1) fun q => { q with heardSlots := q.heardSlots - 1 } })
            ∧ (p.heardSlots = 1 →
                (Leads .silenceLimit s fun t =>
                    t.peers = s.peers.set (o - 1) absent ∧ t.slot = freed.slot ∧ t.due = freed.due
                      ∧ (∀ i, let e := s.entry i
                          t.entry i = if e.source = o ∧ e.rests then e.passed .lost else e)
                      ∧ t.req = (requestsAbsent o kept).req
                      ∧ s.takesEvents t fun es =>
                          ofKind .peer es = [⟨.peer, 2, o, 0, 0, s.slot.round⟩]
                            ∧ ofKind .entry es = s.passages (fun e => e.source = o ∧ e.rests) 4 .lost
                            ∧ ofKind .request es = (requestsAbsent o kept).raised)
                  ∧ ((∀ e ∈ s.image, e.source ≠ o) → (∀ r ∈ s.req.list, r.target ≠ o) →
                      Gives .silenceLimit s ({ freed with peers := s.peers.set (o - 1) absent }.withEvent .peer 2 o 0 0)))

/-- ROUND_BOUNDARY: the round counter adds 1 and every block's reaction becomes due, the deadline count's for a collection that did not
begin at this moment (R156); in CLAIMING and MEMBER, outside a hold, with fewer than WANT records, the first FREE record without activity
last round, upward from the preferred slot, becomes CLAIMING; with none the station is STARVED, reported once (R16, R28, R29; what is due,
log 2). -/
def Obligations.BoundarySearchesForASlot : Prop :=
  ∀ (s : State) (start : Bool), s.live → s.settled → s.ctl.state ≠ .off →
    s.due = { Due.none with boundary := true, start := start } → s.unitA.deadlineDue = false → s.unitB.deadlineDue = false →
    let mark (x : SnapshotUnit) : SnapshotUnit := { x with deadlineDue := x.state = .collecting ∧ x.begunNow = false }
    let slot : SlotUnit := { s.slot with round := s.slot.round + 1 }
    let base : State :=
      { s with
        slot := slot
        due := ⟨none, false, start, true, true, true, true, true, true⟩
        unitA := mark s.unitA
        unitB := mark s.unitB }
    let held := s.ownedCount + s.claimingCount
    let searching := (s.ctl.state = .claiming ∨ s.ctl.state = .member) ∧ s.line.hold = false ∧ held < s.ctl.config.want
    let nth (j : Nat) : Nat := ((s.ctl.config.station - 1) % s.ctl.config.slots + j) % s.ctl.config.slots
    let open_ (k : Nat) : Prop := (s.slotAt k).state = .free ∧ (s.slotAt k).activityLast = false
    (¬searching → Gives .roundBoundary s base)
      ∧ (∀ j, searching → j < s.ctl.config.slots → open_ (nth j) → (∀ i, i < j → ¬open_ (nth i)) →
          Gives .roundBoundary s
            { base with
              slot :=
                { slot with
                  starved := false
                  map := s.slot.map.modify (nth j) fun r => { r with state := .claiming 0, ownerHeard := false } } })
      ∧ (searching → (∀ k, k < s.ctl.config.slots → ¬open_ k) →
          (s.slot.starved = true → Gives .roundBoundary s base)
            ∧ (s.slot.starved = false →
                Gives .roundBoundary s
                  ({ base with slot := { slot with starved := true } }.withEvent
                    .slot 4 (nth 0) held (BitVec.ofNat 32 s.ctl.config.want))))

/-- START_OF_SLOT: an OWNED record in MEMBER or LEAVING assembles a slot frame with the oldest answer, the first WAITING request that no
unended predecessor holds, and the data section; a CLAIMING record in CLAIMING or MEMBER assembles a claim frame; otherwise, and in a hold,
nothing is assembled (R19, R20, R67, R75, R132, R135). -/
def Obligations.StartOfSlotAssembles : Prop :=
  ∀ s : State, s.live → s.settled →
    (s.due.start = false → Gives .startOfSlot s s)
      ∧ (s.due = { Due.none with start := true } → s.ctl.state ≠ .off →
          let k := s.slot.counter
          let st := (s.slotAt k).state
          let taken (tx : Option Transmission) : State := { s with due := Due.none, line := { s.line with tx := tx } }
          let frame (kind : FrameKind) : Frame :=
            ⟨kind, s.ctl.config.station, k, (s.ctl.config.slots - 1) + 64 * s.ctl.config.rate, s.line.sequence, s.ctl.cond, none,
              none, []⟩
          (s.line.hold = true ∨ (st.isOwned = false ∧ st.isClaiming = false) → Gives .startOfSlot s (taken s.line.tx))
            ∧ (s.line.hold = false → st.isClaiming = true → s.ctl.state = .claiming ∨ s.ctl.state = .member →
                Gives .startOfSlot s
                  (taken (some ⟨.claimFrame, k, frameBytes (frame .claimFrame), none, none, .assembled, false, false⟩)))
            ∧ ∀ request : Option RequestRecord, s.line.hold = false → st.isOwned = true →
                s.ctl.state = .member ∨ s.ctl.state = .leaving → (s.req.list.map (·.id)).Nodup →
                let held (q : RequestRecord) : Prop := ∃ p ∈ s.req.list, q.predecessor = some p.id ∧ p.state.live = true
                (request = none ∧ ∀ q ∈ s.req.list, q.state = .waiting → held q)
                    ∨ (∃ before r after, request = some r ∧ s.req.list = before ++ r :: after ∧ r.state = .waiting ∧ ¬held r
                        ∧ ∀ q ∈ before, q.state = .waiting → held q) →
                Gives .startOfSlot s
                  (taken
                    (some
                      ⟨.slotFrame, k,
                        frameBytes
                          { frame .slotFrame with
                            request := request.map fun r => ⟨r.tag, r.target, r.kind, r.index, r.value⟩
                            answer := s.pub.answers.head?.map fun a =>
                              ⟨a.tag, a.requester, a.kind, a.index, a.outcome, a.content⟩
                            data := dataSection s.pub.catalogue },
                        s.pub.answers.head?.map (·.id), request.map (·.id), .assembled, false, false⟩)))

/-- Station control at a boundary. LISTEN_END: the listening count adds 1 in LISTENING, and at 2 the station is CLAIMING, with its event,
and the search for a slot is made at that same boundary: the first FREE record without activity last round, upward from the preferred slot,
is CLAIMING, or the station is STARVED, reported once (R28, R29, R47). LEAVING_LIMIT: the leaving count adds 1 in LEAVING, and at 2 the
station is OFF, with STATION STATE, cause LEAVE_LIMIT, and every block as entering OFF leaves it (R51, R52, R57). HOST_LOST: the host-loss
count adds 1, and at the timeout HOST_LOST is set with its event; a timeout of 0, OFF, or a set HOST_LOST stops it (R55). -/
def Obligations.StationFollowsTheBoundary : Prop :=
  ∀ s : State, s.live → s.settled →
    let c := s.ctl.config
    let listened : State :=
      { s with due := { s.due with listen := false }, ctl := { s.ctl with listening := s.ctl.listening + 1 } }
    let left : State := { s with due := { s.due with leaving := false } }
    let hosted : State := { s with due := { s.due with host := false } }
    ((s.due.listen = false → Gives .listenEnd s s)
        ∧ (s.due.listen = true → s.ctl.state ≠ .listening →
            Gives .listenEnd s { s with due := { s.due with listen := false } })
        ∧ (s.due.listen = true → s.ctl.state = .listening → s.ctl.listening = 0 → Gives .listenEnd s listened)
        ∧ (s.due.listen = true → s.ctl.state = .listening → 1 ≤ s.ctl.listening →
            (Leads .listenEnd s fun t => t.ctl = { listened.ctl with state := .claiming })
              ∧ (s.line.hold = true ∨ c.want ≤ s.ownedCount + s.claimingCount →
                  Gives .listenEnd s
                    ({ listened with ctl := { listened.ctl with state := .claiming } }.withEvent .station 1 c.station 2 2))
              ∧ (s.line.hold = false → s.ownedCount + s.claimingCount < c.want →
                  let claiming : State := { listened with ctl := { listened.ctl with state := .claiming } }
                  let nth (j : Nat) : Nat := ((c.station - 1) % c.slots + j) % c.slots
                  let open_ (k : Nat) : Prop := (s.slotAt k).state = .free ∧ (s.slotAt k).activityLast = false
                  (∀ j, j < c.slots → open_ (nth j) → (∀ i, i < j → ¬open_ (nth i)) →
                      Gives .listenEnd s
                        ({ claiming with
                            slot :=
                              { s.slot with
                                starved := false
                                map := s.slot.map.modify (nth j) fun r =>
                                  { r with state := .claiming 0, ownerHeard := false } } }.withEvent
                          .station 1 c.station 2 2))
                    ∧ ((∀ k, k < c.slots → ¬open_ k) →
                        (s.slot.starved = true → Gives .listenEnd s (claiming.withEvent .station 1 c.station 2 2))
                          ∧ (s.slot.starved = false → s.host.events.length ≤ 30 →
                              Leads .listenEnd s fun t =>
                                let entered : EventRecord := ⟨.station, 1, c.station, 2, 2, s.slot.round⟩
                                let starved : EventRecord :=
                                  ⟨.slot, 4, nth 0, s.ownedCount + s.claimingCount, BitVec.ofNat 32 c.want, s.slot.round⟩
                                t.ctl = claiming.ctl ∧ t.slot = { s.slot with starved := true } ∧ t.due = claiming.due
                                  ∧ t.line = s.line ∧ t.peers = s.peers ∧ t.image = s.image ∧ t.req = s.req
                                  ∧ (t.host.events = s.host.events ++ [entered, starved]
                                      ∨ t.host.events = s.host.events ++ [starved, entered]))))))
      ∧ ((s.due.leaving = false → Gives .leavingLimit s s)
        ∧ (s.due.leaving = true → s.ctl.state ≠ .leaving → Gives .leavingLimit s left)
        ∧ (s.due.leaving = true → s.ctl.state = .leaving → s.ctl.leaving = 0 →
            Gives .leavingLimit s { left with ctl := { s.ctl with leaving := 1 } })
        ∧ (s.due.leaving = true → s.ctl.state = .leaving → 1 ≤ s.ctl.leaving →
            Leads .leavingLimit s fun t =>
              t.ctl.state = .off ∧ t.ctl.leaving = 0 ∧ t.ctl.cond.leaving = false ∧ t.ownedCount = 0 ∧ t.pub.answers = []
                ∧ s.takesEvents t fun es =>
                    s.entersOff t es ∧ ofKind .station es = [⟨.station, 1, c.station, 7, 0, s.slot.round⟩]))
      ∧ ((s.due.host = false → Gives .hostLost s s)
        ∧ (s.due.host = true → s.ctl.state = .off ∨ c.timeout = 0 ∨ s.ctl.cond.hostLost = true → Gives .hostLost s hosted)
        ∧ (s.due.host = true → s.ctl.state ≠ .off → c.timeout ≠ 0 → s.ctl.cond.hostLost = false →
            (s.ctl.hostLoss + 1 ≠ c.timeout →
                Gives .hostLost s { hosted with ctl := { s.ctl with hostLoss := s.ctl.hostLoss + 1 } })
              ∧ (s.ctl.hostLoss + 1 = c.timeout →
                  Gives .hostLost s
                    ({ hosted with
                        ctl := { s.ctl with hostLoss := c.timeout, cond := { s.ctl.cond with hostLost := true } } }.withEvent
                      .station 2 c.station 0 (BitVec.ofNat 32 c.timeout)))))

/-- STALE_AGE: the age of each FRESH and STALE entry adds 1, saturating at 15, and a FRESH entry that reaches its stale limit is STALE, with
its fallback presented and evaluated and ENTRY STALE_AGE raised, in order of entry index; every other entry and every other block but the
snapshot units stays (R108, R113, R115, R121). ANSWER_WAIT_EXPIRY: record after record in list order (that discovery records come in it too,
log 33, and that a successor broken by a record's end comes with its REQUEST event before the next record's, log 34: both orders are the
model's), each SENT one waits one boundary less; at 0 it is WAITING again with attempts below 3, an application record ends FAILED with
NO_ANSWER, its event and its chain judged, as EndOfARecordJudgesItsSuccessors says, and a discovery record is removed, its peer's FETCHING
catalogue FAILED with CATALOGUE_FAILED, the fetch failures one more, and that peer's RESOLVING entries FAILED with NO_CATALOGUE, each with
its event (R93, R98, R104, R115, R137, R142). -/
def Obligations.EntriesAgeAndWaitsExpire : Prop :=
  (∀ s : State, s.live → s.settled →
    (s.due.ages = false → Gives .staleAge s s)
      ∧ (s.due.ages = true → s.ctl.state ≠ .off →
          let age (e : ImageEntry) : Nat := if 15 ≤ e.age then e.age else e.age + 1
          (Leads .staleAge s fun t =>
              (∀ i, let e := s.entry i
                let a := t.entry i
                (e.state = .fresh → age e = e.staleLimit → a = { e with age := age e }.passed .stale)
                  ∧ ((e.state = .fresh ∧ age e ≠ e.staleLimit) ∨ e.state = .stale → a = { e with age := age e })
                  ∧ (e.state ≠ .fresh → e.state ≠ .stale → a = e))
                ∧ t.due = { s.due with ages := false } ∧ t.line = s.line ∧ t.slot = s.slot ∧ t.ctl = s.ctl ∧ t.pub = s.pub
                ∧ t.peers = s.peers ∧ t.req = s.req
                ∧ s.takesEvents t fun es =>
                    ofKind .entry es = s.passages (fun e => e.state = .fresh ∧ age e = e.staleLimit) 2 .stale)))
    ∧ (∀ s : State, s.live → s.settled →
    (s.due.waits = false → Gives .answerWaitExpiry s s)
      ∧ (s.due.waits = true → s.ctl.state ≠ .off →
          let spent (r : RequestRecord) : Prop := r.state = .sent ∧ r.wait ≤ 1 ∧ 3 ≤ r.attempts
          let next (r : RequestRecord) : RequestRecord :=
            if r.state ≠ .sent then r
            else if 1 < r.wait then { r with wait := r.wait - 1 }
            else if r.attempts < 3 then { r with wait := r.wait - 1, state := .waiting }
            else { r with wait := r.wait - 1, state := .failed, outcome := some .noAnswer, content := .nothing }
          let fetching (n : Nat) : Prop := 1 ≤ n ∧ n ≤ s.peers.length ∧ n ≠ s.ctl.config.station ∧ (s.peer n).catalogue = .fetching
          let unlinked (id : Nat) (r : RequestRecord) : RequestRecord :=
            if r.predecessor = some id then { r with predecessor := none } else r
          (Leads .answerWaitExpiry s fun t =>
              let u := s.req.list.foldl (fun u r => waitRecord discoveryNoAnswer u r.id) { s with due := { s.due with waits := false } }
              t.req = u.req ∧ t.peers = u.peers ∧ t.image = u.image ∧ t.due = u.due
                ∧ s.takesEvents t fun es => ∀ kind, ofKind kind es = ofKind kind u.raised)
            ∧ (∀ (before after : List RequestRecord) (r : RequestRecord), s.req.list = before ++ r :: after →
                (∀ q ∈ before ++ after, q.id ≠ r.id) →
                let waited (r : RequestRecord) : State := { s with req := { s.req with list := before ++ r :: after } }
                let removed : State := { s with req := { s.req with list := (before ++ after).map (unlinked r.id) } }
                let u := waitRecord discoveryNoAnswer s r.id
                (¬spent r → u = waited (next r))
                  ∧ (spent r → r.origin = .application →
                      u = endRecord r.id .noAnswer .nothing (waited { r with wait := r.wait - 1 }))
                  ∧ (spent r → r.origin = .discovery → (s.peer r.target).catalogue ≠ .fetching → u = removed)
                  ∧ (spent r → r.origin = .discovery → fetching r.target →
                      u.req = removed.req
                        ∧ u.peers = s.peers.modify (r.target - 1) (fun p =>
                            { p with catalogue := .failed, fetchFailures := satInc p.fetchFailures })
                        ∧ (∀ i, let e := s.entry i
                            u.entry i = if e.source = r.target ∧ e.state = .resolving then e.passed (.failed .noCatalogue) else e)
                        ∧ ofKind .request u.raised = ofKind .request s.raised
                        ∧ ofKind .peer u.raised
                          = ofKind .peer s.raised
                            ++ [⟨.peer, 6, r.target, r.index, (satInc (s.peer r.target).fetchFailures).setWidth 32, s.slot.round⟩]
                        ∧ ofKind .entry u.raised
                          = ofKind .entry s.raised
                            ++ s.passages (fun e => e.source = r.target ∧ e.state = .resolving) 5 (.failed .noCatalogue)))
            ∧ ((s.req.list.map (·.id)).Nodup → (∀ r ∈ s.req.list, r.predecessor = none) →
              (∀ r ∈ s.req.list, spent r → r.origin = .application) →
              let ended := s.req.list.filter fun r => r.state == .sent && r.wait ≤ 1 && 3 ≤ r.attempts
              let events : List EventRecord := ended.map fun r => ⟨.request, 5, r.tag, r.target, 0, s.slot.round⟩
              Gives .answerWaitExpiry s
                { s with
                  due := { s.due with waits := false }
                  req := { s.req with list := s.req.list.map next }
                  host := events.foldl enterEvent s.host })
            ∧ ∀ (before after : List RequestRecord) (r : RequestRecord), s.req.list = before ++ r :: after →
                (s.req.list.map (·.id)).Nodup → spent r → r.origin = .discovery → fetching r.target →
                (∀ q ∈ before ++ after, ¬spent q) →
                Leads .answerWaitExpiry s fun t =>
                  t.req.list = (before ++ after).map (fun q => unlinked r.id (next q))
                    ∧ t.peers = s.peers.modify (r.target - 1) (fun p =>
                        { p with catalogue := .failed, fetchFailures := satInc p.fetchFailures })
                    ∧ (∀ i, let e := s.entry i
                        t.entry i = if e.source = r.target ∧ e.state = .resolving then e.passed (.failed .noCatalogue) else e)
                    ∧ s.takesEvents t fun es =>
                        ofKind .request es = []
                          ∧ ofKind .peer es
                            = [⟨.peer, 6, r.target, r.index, (satInc (s.peer r.target).fetchFailures).setWidth 32, s.slot.round⟩]
                          ∧ ofKind .entry es
                            = s.passages (fun e => e.source = r.target ∧ e.state = .resolving) 5 (.failed .noCatalogue)))

/-- ROUND_TRIGGER: a ROUND unit counts a boundary, and at its period starts again from 0 with a trigger, which an ARMED unit with a place
pending at the start answers with a collection; units without a ROUND trigger count nothing; with A triggered too, A collects first; B
triggered alone while A is ARMED waits for the end of the moment (R149, R151, R152, R153; that it waits, and what the units remember of the
moment, is the model's form, log 20). DEADLINE_PASSED: the collection's deadline count adds 1; at the deadline its pending places are
MISSING with this round's stamp, and it ends PARTIAL with its event (R156, R157). -/
def Obligations.UnitsFollowTheBoundary : Prop :=
  ∀ s : State, s.live → s.settled →
    ((s.due.periods = false → Gives .roundTrigger s s)
        ∧ (s.due.periods = true → s.collectorFree → s.inArrival = false → s.called = 0 → s.began = false →
            let t : State := { s with due := { s.due with periods := false } }
            ((∀ p, s.unitA.trigger ≠ .round p) → (∀ p, s.unitB.trigger ≠ .round p) → Gives .roundTrigger s t)
              ∧ (∀ p, s.unitB.trigger = .round p → (∀ q, s.unitA.trigger ≠ .round q) → s.unitA.state = .armed →
                  s.unitB.state = .armed → p ≤ s.unitB.periodCount + 1 →
                  Gives .roundTrigger s { t with unitB := { s.unitB with periodCount := 0 }, called := 1 })
              ∧ (∀ p q, s.unitA.trigger = .round p → s.unitB.trigger = .round q → s.unitA.state = .armed → s.unitB.state = .armed →
                  p ≤ s.unitA.periodCount + 1 → q ≤ s.unitB.periodCount + 1 →
                  (∃ i ∈ s.unitA.set, (s.entry i).state.served = true) →
                  Gives .roundTrigger s
                    { t with
                      unitA :=
                        { s.unitA with
                          periodCount := 0, state := .collecting, start := s.slot.round, summary := .nothing
                          places := s.unitA.set.map (startPlace s), deadlineCount := 0, deadlineDue := false
                          begunNow := true, passOver := false }
                      unitB :=
                        if s.unitB.hold then { s.unitB with periodCount := 0, state := .pending }
                        else { s.unitB with periodCount := 0, ignored := satInc s.unitB.ignored }
                      began := true })
              ∧ ∀ (u : UnitId) (p : Nat), (s.unit u).trigger = .round p → (∀ q, (s.unit u.other).trigger ≠ .round q) →
                  ((s.unit u).periodCount + 1 < p →
                      Gives .roundTrigger s (t.modUnit u fun x => { x with periodCount := x.periodCount + 1 }))
                    ∧ (p ≤ (s.unit u).periodCount + 1 → (s.unit u).state = .armed → u = .a ∨ s.unitA.state ≠ .armed →
                        (∃ i ∈ (s.unit u).set, (s.entry i).state.served = true) →
                        Gives .roundTrigger s
                          { t.modUnit u fun x =>
                              { x with
                                periodCount := 0, state := .collecting, start := s.slot.round, summary := .nothing
                                places := x.set.map (startPlace s), deadlineCount := 0, deadlineDue := false
                                begunNow := true, passOver := false } with
                            began := decide (u = .a) })))
      ∧ ((s.unitA.deadlineDue = false → s.unitB.deadlineDue = false → Gives .deadlinePassed s s)
        ∧ ∀ u : UnitId, (s.unit u).deadlineDue = true → (s.unit u).state = .collecting → (s.unit u.other).deadlineDue = false →
            let x := s.unit u
            (x.deadlineCount + 1 < x.deadline →
                Gives .deadlinePassed s
                  (s.modUnit u fun _ => { x with deadlineDue := false, deadlineCount := x.deadlineCount + 1 }))
              ∧ (x.deadline ≤ x.deadlineCount + 1 → (∃ p ∈ x.places, p.status = .pending) →
                  (s.unit u.other).state ≠ .pending →
                  let places := x.places.map fun p =>
                    if p.status = .pending then { p with status := .missing, value := 0, stamp := s.slot.round } else p
                  Gives .deadlinePassed s
                    ((s.modUnit u fun _ =>
                        { x with
                          deadlineDue := false, deadlineCount := x.deadlineCount + 1, places := places
                          state := if x.oneShot then .spent else .armed
                          summary := .incomplete }).withEvent
                      .snapshot 2 u.code (x.places.countP fun p => p.status == .captured)
                      (BitVec.ofNat 32 (x.places.countP fun p => p.status == .missing || p.status == .pending)))))

/-- DISCOVERY_ENTRY: with a place free, the lowest-numbered peer that needs discovery gets a record asking its lowest unknown index, and its
catalogue is FETCHING; with no place or no such peer nothing changes (R90, R91, R129, R146). -/
def Obligations.DiscoveryEntersTheLowestPeer : Prop :=
  ∀ s : State, s.live →
    let needs (n : Nat) : Prop :=
      (s.ctl.state = .claiming ∨ s.ctl.state = .member) ∧ (s.peer n).presence = .present
        ∧ ((s.peer n).catalogue = .unknown ∨ (s.peer n).catalogue = .fetching)
        ∧ (∃ e ∈ s.image, e.source = n ∧ e.state = .resolving)
        ∧ ∀ r ∈ s.req.list, ¬(r.origin = .discovery ∧ r.target = n)
    let asks (n i : Nat) : Prop :=
      i < 32 ∧ (∀ c, (s.peer n).count = some c → i < c) ∧ (s.peer n).shapeAt i = none
        ∧ ∀ j, j < i → (s.peer n).shapeAt j ≠ none
    (8 ≤ s.req.list.length ∨ 4 ≤ s.req.discoveryCount ∨ (∀ n, 1 ≤ n → n ≤ 32 → ¬needs n) →
        exec .discoveryEntry s = .next s)
      ∧ ∀ n i, s.req.list.length < 8 → s.req.discoveryCount < 4 → 1 ≤ n → n ≤ 32 → n ≤ s.peers.length →
          n ≠ s.ctl.config.station → needs n → asks n i → (∀ m, 1 ≤ m → m < n → ¬needs m) →
          exec .discoveryEntry s
            = .next
              { s with
                peers := s.peers.modify (n - 1) fun p => { p with catalogue := .fetching }
                req :=
                  { s.req with
                    tagCounter := s.req.nextTag
                    list :=
                      s.req.list
                        ++ [⟨s.serial, s.req.nextTag, .discovery, n, .readEntry, i, none, none, false, .waiting, 0, 0, none,
                              .nothing⟩] }
                serial := s.serial + 1 }

/-! ### What every step keeps -/

/-- The machine after reset keeps every law (R172). -/
def Obligations.ResetKeepsTheLaws : Prop :=
  State.reset.SizesLaw ∧ State.reset.OwnershipLaw ∧ State.reset.StationLaw ∧ State.reset.EventsLaw ∧ State.reset.AnswersLaw
    ∧ State.reset.RequestsLaw ∧ State.reset.CollectorLaw ∧ State.reset.HoldLaw ∧ State.reset.PresenceLaw ∧ State.reset.ImageLaw
    ∧ State.reset.CatalogueLaw

/-- The tables keep their sizes, the configuration block its ranges, and the slot counter stays below SLOTS, 0 in OFF (R16, R22, R43, R78,
R99, R164). -/
def Obligations.StepsKeepTheSizes : Prop := ∀ s t : State, s.SizesLaw → step s = .next t → t.SizesLaw

/-- OWNED plus CLAIMING records never exceed WANT (R28); the station state follows the OWNED records, and the LEAVING flag the state (R36,
R48, R50, R51, R53); in OFF no LOST report waits, and a frame being sent will give none (R21, R52; the mark that says so, log 11). -/
def Obligations.StepsKeepOwnership : Prop :=
  (∀ s t : State, s.OwnershipLaw → step s = .next t → t.OwnershipLaw)
    ∧ (∀ s t : State, s.StationLaw → step s = .next t → t.StationLaw)

/-- The event queue holds at most 32 records (R168), the answer queue at most 4, no two alike (R69, R74). -/
def Obligations.StepsKeepTheQueues : Prop :=
  (∀ s t : State, s.EventsLaw → step s = .next t → t.EventsLaw) ∧ ∀ s t : State, s.AnswersLaw → step s = .next t → t.AnswersLaw

/-- The request list keeps its places, its distinct tags and its attempts (R129, R137). -/
def Obligations.StepsKeepTheRequestList : Prop := ∀ s t : State, s.RequestsLaw → step s = .next t → t.RequestsLaw

/-- At most one unit collects, and a unit is PENDING only while the other collects (R152); in a medium hold no frame is held or sent and no
arrival is in progress (R14, R15). -/
def Obligations.StepsKeepOneCollectionAndQuietHolds : Prop :=
  (∀ s t : State, s.CollectorLaw → step s = .next t → t.CollectorLaw)
    ∧ (∀ s t : State, s.HoldLaw → step s = .next t → t.HoldLaw)

/-- A peer is PRESENT exactly while the slot map holds a record HEARD by it (R80). -/
def Obligations.StepsKeepPresence : Prop := ∀ s t : State, s.PresenceLaw → step s = .next t → t.PresenceLaw

/-- An entry that takes values has a PRESENT source with a KNOWN catalogue, and a FRESH one is younger than its limit (R99, R113); a KNOWN
catalogue holds its count, the shapes below it and their offsets (R89). -/
def Obligations.StepsKeepTheImage : Prop :=
  (∀ s t : State, s.ImageLaw → step s = .next t → t.ImageLaw) ∧ ∀ s t : State, s.CatalogueLaw → step s = .next t → t.CatalogueLaw

/-- Where the moment before leaves the station outside OFF (the end of a leaving sequence still due enters OFF first, R51), no command
changes the configuration block or a descriptor of the catalogue, a reset apart (R43, R44, R59, R61). A counter that saturates adds 1 up to
its largest value, and none of the eleven falls but by a reset (00 Conventions, R13, R171). -/
def Obligations.ConfigurationStandsAndCountersNeverFall : Prop :=
  (∀ s t : State, (settle s).ctl.state ≠ .off → step s = .next t → t.host.resetting = .idle →
    t.ctl.config = s.ctl.config ∧ t.pub.catalogue.map (·.descriptor) = s.pub.catalogue.map (·.descriptor))
    ∧ ((∀ x : Half, (satInc x).toNat = min 65535 (x.toNat + 1))
    ∧ ∀ s t : State, step s = .next t → t.host.resetting = .idle →
        s.line.good ≤ t.line.good ∧ s.line.badCrc ≤ t.line.badCrc ∧ s.line.format ≤ t.line.format
          ∧ s.line.planMismatch ≤ t.line.planMismatch ∧ s.line.arbitrationLosses ≤ t.line.arbitrationLosses
          ∧ s.line.holds ≤ t.line.holds ∧ s.slot.outOfStep ≤ t.slot.outOfStep ∧ s.pub.dropped ≤ t.pub.dropped
          ∧ s.pub.notServed ≤ t.pub.notServed ∧ s.pub.broadcastIgnored ≤ t.pub.broadcastIgnored
          ∧ s.req.lateAnswers ≤ t.req.lateAnswers)
end

