-- ==== Sys2Proof/Laws/State.lean ====
section
/-! SUPPORT. One lemma for each field and each update of one block, so that no proof unfolds a record update. -/

namespace Sys2Proof.Machine

/-! ### modLine -/

@[simp] theorem modLine_line (f : LineUnit → LineUnit) (s : State) : (s.modLine f).line = f s.line := rfl
@[simp] theorem modLine_slot (f : LineUnit → LineUnit) (s : State) : (s.modLine f).slot = s.slot := rfl
@[simp] theorem modLine_ctl (f : LineUnit → LineUnit) (s : State) : (s.modLine f).ctl = s.ctl := rfl
@[simp] theorem modLine_pub (f : LineUnit → LineUnit) (s : State) : (s.modLine f).pub = s.pub := rfl
@[simp] theorem modLine_peers (f : LineUnit → LineUnit) (s : State) : (s.modLine f).peers = s.peers := rfl
@[simp] theorem modLine_image (f : LineUnit → LineUnit) (s : State) : (s.modLine f).image = s.image := rfl
@[simp] theorem modLine_req (f : LineUnit → LineUnit) (s : State) : (s.modLine f).req = s.req := rfl
@[simp] theorem modLine_unitA (f : LineUnit → LineUnit) (s : State) : (s.modLine f).unitA = s.unitA := rfl
@[simp] theorem modLine_unitB (f : LineUnit → LineUnit) (s : State) : (s.modLine f).unitB = s.unitB := rfl
@[simp] theorem modLine_host (f : LineUnit → LineUnit) (s : State) : (s.modLine f).host = s.host := rfl
@[simp] theorem modLine_trig (f : LineUnit → LineUnit) (s : State) : (s.modLine f).trig = s.trig := rfl
@[simp] theorem modLine_due (f : LineUnit → LineUnit) (s : State) : (s.modLine f).due = s.due := rfl
@[simp] theorem modLine_called (f : LineUnit → LineUnit) (s : State) : (s.modLine f).called = s.called := rfl
@[simp] theorem modLine_began (f : LineUnit → LineUnit) (s : State) : (s.modLine f).began = s.began := rfl
@[simp] theorem modLine_order (f : LineUnit → LineUnit) (s : State) : (s.modLine f).order = s.order := rfl
@[simp] theorem modLine_freeCount (f : LineUnit → LineUnit) (s : State) : (s.modLine f).freeCount = s.freeCount := rfl
@[simp] theorem modLine_serial (f : LineUnit → LineUnit) (s : State) : (s.modLine f).serial = s.serial := rfl
@[simp] theorem modLine_raised (f : LineUnit → LineUnit) (s : State) : (s.modLine f).raised = s.raised := rfl
@[simp] theorem modLine_inArrival (f : LineUnit → LineUnit) (s : State) : (s.modLine f).inArrival = s.inArrival := rfl
@[simp] theorem modLine_pending (f : LineUnit → LineUnit) (s : State) : (s.modLine f).pending = s.pending := rfl

/-! ### modSlot -/

@[simp] theorem modSlot_line (f : SlotUnit → SlotUnit) (s : State) : (s.modSlot f).line = s.line := rfl
@[simp] theorem modSlot_slot (f : SlotUnit → SlotUnit) (s : State) : (s.modSlot f).slot = f s.slot := rfl
@[simp] theorem modSlot_ctl (f : SlotUnit → SlotUnit) (s : State) : (s.modSlot f).ctl = s.ctl := rfl
@[simp] theorem modSlot_pub (f : SlotUnit → SlotUnit) (s : State) : (s.modSlot f).pub = s.pub := rfl
@[simp] theorem modSlot_peers (f : SlotUnit → SlotUnit) (s : State) : (s.modSlot f).peers = s.peers := rfl
@[simp] theorem modSlot_image (f : SlotUnit → SlotUnit) (s : State) : (s.modSlot f).image = s.image := rfl
@[simp] theorem modSlot_req (f : SlotUnit → SlotUnit) (s : State) : (s.modSlot f).req = s.req := rfl
@[simp] theorem modSlot_unitA (f : SlotUnit → SlotUnit) (s : State) : (s.modSlot f).unitA = s.unitA := rfl
@[simp] theorem modSlot_unitB (f : SlotUnit → SlotUnit) (s : State) : (s.modSlot f).unitB = s.unitB := rfl
@[simp] theorem modSlot_host (f : SlotUnit → SlotUnit) (s : State) : (s.modSlot f).host = s.host := rfl
@[simp] theorem modSlot_trig (f : SlotUnit → SlotUnit) (s : State) : (s.modSlot f).trig = s.trig := rfl
@[simp] theorem modSlot_due (f : SlotUnit → SlotUnit) (s : State) : (s.modSlot f).due = s.due := rfl
@[simp] theorem modSlot_called (f : SlotUnit → SlotUnit) (s : State) : (s.modSlot f).called = s.called := rfl
@[simp] theorem modSlot_began (f : SlotUnit → SlotUnit) (s : State) : (s.modSlot f).began = s.began := rfl
@[simp] theorem modSlot_order (f : SlotUnit → SlotUnit) (s : State) : (s.modSlot f).order = s.order := rfl
@[simp] theorem modSlot_freeCount (f : SlotUnit → SlotUnit) (s : State) : (s.modSlot f).freeCount = s.freeCount := rfl
@[simp] theorem modSlot_serial (f : SlotUnit → SlotUnit) (s : State) : (s.modSlot f).serial = s.serial := rfl
@[simp] theorem modSlot_raised (f : SlotUnit → SlotUnit) (s : State) : (s.modSlot f).raised = s.raised := rfl
@[simp] theorem modSlot_inArrival (f : SlotUnit → SlotUnit) (s : State) : (s.modSlot f).inArrival = s.inArrival := rfl
@[simp] theorem modSlot_pending (f : SlotUnit → SlotUnit) (s : State) : (s.modSlot f).pending = s.pending := rfl

/-! ### modCtl -/

@[simp] theorem modCtl_line (f : StationControl → StationControl) (s : State) : (s.modCtl f).line = s.line := rfl
@[simp] theorem modCtl_slot (f : StationControl → StationControl) (s : State) : (s.modCtl f).slot = s.slot := rfl
@[simp] theorem modCtl_ctl (f : StationControl → StationControl) (s : State) : (s.modCtl f).ctl = f s.ctl := rfl
@[simp] theorem modCtl_pub (f : StationControl → StationControl) (s : State) : (s.modCtl f).pub = s.pub := rfl
@[simp] theorem modCtl_peers (f : StationControl → StationControl) (s : State) : (s.modCtl f).peers = s.peers := rfl
@[simp] theorem modCtl_image (f : StationControl → StationControl) (s : State) : (s.modCtl f).image = s.image := rfl
@[simp] theorem modCtl_req (f : StationControl → StationControl) (s : State) : (s.modCtl f).req = s.req := rfl
@[simp] theorem modCtl_unitA (f : StationControl → StationControl) (s : State) : (s.modCtl f).unitA = s.unitA := rfl
@[simp] theorem modCtl_unitB (f : StationControl → StationControl) (s : State) : (s.modCtl f).unitB = s.unitB := rfl
@[simp] theorem modCtl_host (f : StationControl → StationControl) (s : State) : (s.modCtl f).host = s.host := rfl
@[simp] theorem modCtl_trig (f : StationControl → StationControl) (s : State) : (s.modCtl f).trig = s.trig := rfl
@[simp] theorem modCtl_due (f : StationControl → StationControl) (s : State) : (s.modCtl f).due = s.due := rfl
@[simp] theorem modCtl_called (f : StationControl → StationControl) (s : State) : (s.modCtl f).called = s.called := rfl
@[simp] theorem modCtl_began (f : StationControl → StationControl) (s : State) : (s.modCtl f).began = s.began := rfl
@[simp] theorem modCtl_order (f : StationControl → StationControl) (s : State) : (s.modCtl f).order = s.order := rfl
@[simp] theorem modCtl_freeCount (f : StationControl → StationControl) (s : State) : (s.modCtl f).freeCount = s.freeCount := rfl
@[simp] theorem modCtl_serial (f : StationControl → StationControl) (s : State) : (s.modCtl f).serial = s.serial := rfl
@[simp] theorem modCtl_raised (f : StationControl → StationControl) (s : State) : (s.modCtl f).raised = s.raised := rfl
@[simp] theorem modCtl_inArrival (f : StationControl → StationControl) (s : State) : (s.modCtl f).inArrival = s.inArrival := rfl
@[simp] theorem modCtl_pending (f : StationControl → StationControl) (s : State) : (s.modCtl f).pending = s.pending := rfl

/-! ### modPub -/

@[simp] theorem modPub_line (f : Publication → Publication) (s : State) : (s.modPub f).line = s.line := rfl
@[simp] theorem modPub_slot (f : Publication → Publication) (s : State) : (s.modPub f).slot = s.slot := rfl
@[simp] theorem modPub_ctl (f : Publication → Publication) (s : State) : (s.modPub f).ctl = s.ctl := rfl
@[simp] theorem modPub_pub (f : Publication → Publication) (s : State) : (s.modPub f).pub = f s.pub := rfl
@[simp] theorem modPub_peers (f : Publication → Publication) (s : State) : (s.modPub f).peers = s.peers := rfl
@[simp] theorem modPub_image (f : Publication → Publication) (s : State) : (s.modPub f).image = s.image := rfl
@[simp] theorem modPub_req (f : Publication → Publication) (s : State) : (s.modPub f).req = s.req := rfl
@[simp] theorem modPub_unitA (f : Publication → Publication) (s : State) : (s.modPub f).unitA = s.unitA := rfl
@[simp] theorem modPub_unitB (f : Publication → Publication) (s : State) : (s.modPub f).unitB = s.unitB := rfl
@[simp] theorem modPub_host (f : Publication → Publication) (s : State) : (s.modPub f).host = s.host := rfl
@[simp] theorem modPub_trig (f : Publication → Publication) (s : State) : (s.modPub f).trig = s.trig := rfl
@[simp] theorem modPub_due (f : Publication → Publication) (s : State) : (s.modPub f).due = s.due := rfl
@[simp] theorem modPub_called (f : Publication → Publication) (s : State) : (s.modPub f).called = s.called := rfl
@[simp] theorem modPub_began (f : Publication → Publication) (s : State) : (s.modPub f).began = s.began := rfl
@[simp] theorem modPub_order (f : Publication → Publication) (s : State) : (s.modPub f).order = s.order := rfl
@[simp] theorem modPub_freeCount (f : Publication → Publication) (s : State) : (s.modPub f).freeCount = s.freeCount := rfl
@[simp] theorem modPub_serial (f : Publication → Publication) (s : State) : (s.modPub f).serial = s.serial := rfl
@[simp] theorem modPub_raised (f : Publication → Publication) (s : State) : (s.modPub f).raised = s.raised := rfl
@[simp] theorem modPub_inArrival (f : Publication → Publication) (s : State) : (s.modPub f).inArrival = s.inArrival := rfl
@[simp] theorem modPub_pending (f : Publication → Publication) (s : State) : (s.modPub f).pending = s.pending := rfl

/-! ### modReq -/

@[simp] theorem modReq_line (f : RequestUnit → RequestUnit) (s : State) : (s.modReq f).line = s.line := rfl
@[simp] theorem modReq_slot (f : RequestUnit → RequestUnit) (s : State) : (s.modReq f).slot = s.slot := rfl
@[simp] theorem modReq_ctl (f : RequestUnit → RequestUnit) (s : State) : (s.modReq f).ctl = s.ctl := rfl
@[simp] theorem modReq_pub (f : RequestUnit → RequestUnit) (s : State) : (s.modReq f).pub = s.pub := rfl
@[simp] theorem modReq_peers (f : RequestUnit → RequestUnit) (s : State) : (s.modReq f).peers = s.peers := rfl
@[simp] theorem modReq_image (f : RequestUnit → RequestUnit) (s : State) : (s.modReq f).image = s.image := rfl
@[simp] theorem modReq_req (f : RequestUnit → RequestUnit) (s : State) : (s.modReq f).req = f s.req := rfl
@[simp] theorem modReq_unitA (f : RequestUnit → RequestUnit) (s : State) : (s.modReq f).unitA = s.unitA := rfl
@[simp] theorem modReq_unitB (f : RequestUnit → RequestUnit) (s : State) : (s.modReq f).unitB = s.unitB := rfl
@[simp] theorem modReq_host (f : RequestUnit → RequestUnit) (s : State) : (s.modReq f).host = s.host := rfl
@[simp] theorem modReq_trig (f : RequestUnit → RequestUnit) (s : State) : (s.modReq f).trig = s.trig := rfl
@[simp] theorem modReq_due (f : RequestUnit → RequestUnit) (s : State) : (s.modReq f).due = s.due := rfl
@[simp] theorem modReq_called (f : RequestUnit → RequestUnit) (s : State) : (s.modReq f).called = s.called := rfl
@[simp] theorem modReq_began (f : RequestUnit → RequestUnit) (s : State) : (s.modReq f).began = s.began := rfl
@[simp] theorem modReq_order (f : RequestUnit → RequestUnit) (s : State) : (s.modReq f).order = s.order := rfl
@[simp] theorem modReq_freeCount (f : RequestUnit → RequestUnit) (s : State) : (s.modReq f).freeCount = s.freeCount := rfl
@[simp] theorem modReq_serial (f : RequestUnit → RequestUnit) (s : State) : (s.modReq f).serial = s.serial := rfl
@[simp] theorem modReq_raised (f : RequestUnit → RequestUnit) (s : State) : (s.modReq f).raised = s.raised := rfl
@[simp] theorem modReq_inArrival (f : RequestUnit → RequestUnit) (s : State) : (s.modReq f).inArrival = s.inArrival := rfl
@[simp] theorem modReq_pending (f : RequestUnit → RequestUnit) (s : State) : (s.modReq f).pending = s.pending := rfl

/-! ### modHost -/

@[simp] theorem modHost_line (f : HostLink → HostLink) (s : State) : (s.modHost f).line = s.line := rfl
@[simp] theorem modHost_slot (f : HostLink → HostLink) (s : State) : (s.modHost f).slot = s.slot := rfl
@[simp] theorem modHost_ctl (f : HostLink → HostLink) (s : State) : (s.modHost f).ctl = s.ctl := rfl
@[simp] theorem modHost_pub (f : HostLink → HostLink) (s : State) : (s.modHost f).pub = s.pub := rfl
@[simp] theorem modHost_peers (f : HostLink → HostLink) (s : State) : (s.modHost f).peers = s.peers := rfl
@[simp] theorem modHost_image (f : HostLink → HostLink) (s : State) : (s.modHost f).image = s.image := rfl
@[simp] theorem modHost_req (f : HostLink → HostLink) (s : State) : (s.modHost f).req = s.req := rfl
@[simp] theorem modHost_unitA (f : HostLink → HostLink) (s : State) : (s.modHost f).unitA = s.unitA := rfl
@[simp] theorem modHost_unitB (f : HostLink → HostLink) (s : State) : (s.modHost f).unitB = s.unitB := rfl
@[simp] theorem modHost_host (f : HostLink → HostLink) (s : State) : (s.modHost f).host = f s.host := rfl
@[simp] theorem modHost_trig (f : HostLink → HostLink) (s : State) : (s.modHost f).trig = s.trig := rfl
@[simp] theorem modHost_due (f : HostLink → HostLink) (s : State) : (s.modHost f).due = s.due := rfl
@[simp] theorem modHost_called (f : HostLink → HostLink) (s : State) : (s.modHost f).called = s.called := rfl
@[simp] theorem modHost_began (f : HostLink → HostLink) (s : State) : (s.modHost f).began = s.began := rfl
@[simp] theorem modHost_order (f : HostLink → HostLink) (s : State) : (s.modHost f).order = s.order := rfl
@[simp] theorem modHost_freeCount (f : HostLink → HostLink) (s : State) : (s.modHost f).freeCount = s.freeCount := rfl
@[simp] theorem modHost_serial (f : HostLink → HostLink) (s : State) : (s.modHost f).serial = s.serial := rfl
@[simp] theorem modHost_raised (f : HostLink → HostLink) (s : State) : (s.modHost f).raised = s.raised := rfl
@[simp] theorem modHost_inArrival (f : HostLink → HostLink) (s : State) : (s.modHost f).inArrival = s.inArrival := rfl
@[simp] theorem modHost_pending (f : HostLink → HostLink) (s : State) : (s.modHost f).pending = s.pending := rfl

/-! ### modDue -/

@[simp] theorem modDue_line (f : Due → Due) (s : State) : (s.modDue f).line = s.line := rfl
@[simp] theorem modDue_slot (f : Due → Due) (s : State) : (s.modDue f).slot = s.slot := rfl
@[simp] theorem modDue_ctl (f : Due → Due) (s : State) : (s.modDue f).ctl = s.ctl := rfl
@[simp] theorem modDue_pub (f : Due → Due) (s : State) : (s.modDue f).pub = s.pub := rfl
@[simp] theorem modDue_peers (f : Due → Due) (s : State) : (s.modDue f).peers = s.peers := rfl
@[simp] theorem modDue_image (f : Due → Due) (s : State) : (s.modDue f).image = s.image := rfl
@[simp] theorem modDue_req (f : Due → Due) (s : State) : (s.modDue f).req = s.req := rfl
@[simp] theorem modDue_unitA (f : Due → Due) (s : State) : (s.modDue f).unitA = s.unitA := rfl
@[simp] theorem modDue_unitB (f : Due → Due) (s : State) : (s.modDue f).unitB = s.unitB := rfl
@[simp] theorem modDue_host (f : Due → Due) (s : State) : (s.modDue f).host = s.host := rfl
@[simp] theorem modDue_trig (f : Due → Due) (s : State) : (s.modDue f).trig = s.trig := rfl
@[simp] theorem modDue_due (f : Due → Due) (s : State) : (s.modDue f).due = f s.due := rfl
@[simp] theorem modDue_called (f : Due → Due) (s : State) : (s.modDue f).called = s.called := rfl
@[simp] theorem modDue_began (f : Due → Due) (s : State) : (s.modDue f).began = s.began := rfl
@[simp] theorem modDue_order (f : Due → Due) (s : State) : (s.modDue f).order = s.order := rfl
@[simp] theorem modDue_freeCount (f : Due → Due) (s : State) : (s.modDue f).freeCount = s.freeCount := rfl
@[simp] theorem modDue_serial (f : Due → Due) (s : State) : (s.modDue f).serial = s.serial := rfl
@[simp] theorem modDue_raised (f : Due → Due) (s : State) : (s.modDue f).raised = s.raised := rfl
@[simp] theorem modDue_inArrival (f : Due → Due) (s : State) : (s.modDue f).inArrival = s.inArrival := rfl
@[simp] theorem modDue_pending (f : Due → Due) (s : State) : (s.modDue f).pending = s.pending := rfl

/-! ### modSlotAt -/

@[simp] theorem modSlotAt_line (k : Nat) (f : SlotRecord → SlotRecord) (s : State) : (s.modSlotAt k f).line = s.line := rfl
@[simp] theorem modSlotAt_slot (k : Nat) (f : SlotRecord → SlotRecord) (s : State) : (s.modSlotAt k f).slot = { s.slot with map := s.slot.map.modify k f } := rfl
@[simp] theorem modSlotAt_ctl (k : Nat) (f : SlotRecord → SlotRecord) (s : State) : (s.modSlotAt k f).ctl = s.ctl := rfl
@[simp] theorem modSlotAt_pub (k : Nat) (f : SlotRecord → SlotRecord) (s : State) : (s.modSlotAt k f).pub = s.pub := rfl
@[simp] theorem modSlotAt_peers (k : Nat) (f : SlotRecord → SlotRecord) (s : State) : (s.modSlotAt k f).peers = s.peers := rfl
@[simp] theorem modSlotAt_image (k : Nat) (f : SlotRecord → SlotRecord) (s : State) : (s.modSlotAt k f).image = s.image := rfl
@[simp] theorem modSlotAt_req (k : Nat) (f : SlotRecord → SlotRecord) (s : State) : (s.modSlotAt k f).req = s.req := rfl
@[simp] theorem modSlotAt_unitA (k : Nat) (f : SlotRecord → SlotRecord) (s : State) : (s.modSlotAt k f).unitA = s.unitA := rfl
@[simp] theorem modSlotAt_unitB (k : Nat) (f : SlotRecord → SlotRecord) (s : State) : (s.modSlotAt k f).unitB = s.unitB := rfl
@[simp] theorem modSlotAt_host (k : Nat) (f : SlotRecord → SlotRecord) (s : State) : (s.modSlotAt k f).host = s.host := rfl
@[simp] theorem modSlotAt_trig (k : Nat) (f : SlotRecord → SlotRecord) (s : State) : (s.modSlotAt k f).trig = s.trig := rfl
@[simp] theorem modSlotAt_due (k : Nat) (f : SlotRecord → SlotRecord) (s : State) : (s.modSlotAt k f).due = s.due := rfl
@[simp] theorem modSlotAt_called (k : Nat) (f : SlotRecord → SlotRecord) (s : State) : (s.modSlotAt k f).called = s.called := rfl
@[simp] theorem modSlotAt_began (k : Nat) (f : SlotRecord → SlotRecord) (s : State) : (s.modSlotAt k f).began = s.began := rfl
@[simp] theorem modSlotAt_order (k : Nat) (f : SlotRecord → SlotRecord) (s : State) : (s.modSlotAt k f).order = s.order := rfl
@[simp] theorem modSlotAt_freeCount (k : Nat) (f : SlotRecord → SlotRecord) (s : State) : (s.modSlotAt k f).freeCount = s.freeCount := rfl
@[simp] theorem modSlotAt_serial (k : Nat) (f : SlotRecord → SlotRecord) (s : State) : (s.modSlotAt k f).serial = s.serial := rfl
@[simp] theorem modSlotAt_raised (k : Nat) (f : SlotRecord → SlotRecord) (s : State) : (s.modSlotAt k f).raised = s.raised := rfl
@[simp] theorem modSlotAt_inArrival (k : Nat) (f : SlotRecord → SlotRecord) (s : State) : (s.modSlotAt k f).inArrival = s.inArrival := rfl
@[simp] theorem modSlotAt_pending (k : Nat) (f : SlotRecord → SlotRecord) (s : State) : (s.modSlotAt k f).pending = s.pending := rfl

/-! ### modEntry -/

@[simp] theorem modEntry_line (i : Nat) (f : ImageEntry → ImageEntry) (s : State) : (s.modEntry i f).line = s.line := rfl
@[simp] theorem modEntry_slot (i : Nat) (f : ImageEntry → ImageEntry) (s : State) : (s.modEntry i f).slot = s.slot := rfl
@[simp] theorem modEntry_ctl (i : Nat) (f : ImageEntry → ImageEntry) (s : State) : (s.modEntry i f).ctl = s.ctl := rfl
@[simp] theorem modEntry_pub (i : Nat) (f : ImageEntry → ImageEntry) (s : State) : (s.modEntry i f).pub = s.pub := rfl
@[simp] theorem modEntry_peers (i : Nat) (f : ImageEntry → ImageEntry) (s : State) : (s.modEntry i f).peers = s.peers := rfl
@[simp] theorem modEntry_image (i : Nat) (f : ImageEntry → ImageEntry) (s : State) : (s.modEntry i f).image = s.image.modify i f := rfl
@[simp] theorem modEntry_req (i : Nat) (f : ImageEntry → ImageEntry) (s : State) : (s.modEntry i f).req = s.req := rfl
@[simp] theorem modEntry_unitA (i : Nat) (f : ImageEntry → ImageEntry) (s : State) : (s.modEntry i f).unitA = s.unitA := rfl
@[simp] theorem modEntry_unitB (i : Nat) (f : ImageEntry → ImageEntry) (s : State) : (s.modEntry i f).unitB = s.unitB := rfl
@[simp] theorem modEntry_host (i : Nat) (f : ImageEntry → ImageEntry) (s : State) : (s.modEntry i f).host = s.host := rfl
@[simp] theorem modEntry_trig (i : Nat) (f : ImageEntry → ImageEntry) (s : State) : (s.modEntry i f).trig = s.trig := rfl
@[simp] theorem modEntry_due (i : Nat) (f : ImageEntry → ImageEntry) (s : State) : (s.modEntry i f).due = s.due := rfl
@[simp] theorem modEntry_called (i : Nat) (f : ImageEntry → ImageEntry) (s : State) : (s.modEntry i f).called = s.called := rfl
@[simp] theorem modEntry_began (i : Nat) (f : ImageEntry → ImageEntry) (s : State) : (s.modEntry i f).began = s.began := rfl
@[simp] theorem modEntry_order (i : Nat) (f : ImageEntry → ImageEntry) (s : State) : (s.modEntry i f).order = s.order := rfl
@[simp] theorem modEntry_freeCount (i : Nat) (f : ImageEntry → ImageEntry) (s : State) : (s.modEntry i f).freeCount = s.freeCount := rfl
@[simp] theorem modEntry_serial (i : Nat) (f : ImageEntry → ImageEntry) (s : State) : (s.modEntry i f).serial = s.serial := rfl
@[simp] theorem modEntry_raised (i : Nat) (f : ImageEntry → ImageEntry) (s : State) : (s.modEntry i f).raised = s.raised := rfl
@[simp] theorem modEntry_inArrival (i : Nat) (f : ImageEntry → ImageEntry) (s : State) : (s.modEntry i f).inArrival = s.inArrival := rfl
@[simp] theorem modEntry_pending (i : Nat) (f : ImageEntry → ImageEntry) (s : State) : (s.modEntry i f).pending = s.pending := rfl

/-! ### modList -/

@[simp] theorem modList_line (f : List RequestRecord → List RequestRecord) (s : State) : (s.modList f).line = s.line := rfl
@[simp] theorem modList_slot (f : List RequestRecord → List RequestRecord) (s : State) : (s.modList f).slot = s.slot := rfl
@[simp] theorem modList_ctl (f : List RequestRecord → List RequestRecord) (s : State) : (s.modList f).ctl = s.ctl := rfl
@[simp] theorem modList_pub (f : List RequestRecord → List RequestRecord) (s : State) : (s.modList f).pub = s.pub := rfl
@[simp] theorem modList_peers (f : List RequestRecord → List RequestRecord) (s : State) : (s.modList f).peers = s.peers := rfl
@[simp] theorem modList_image (f : List RequestRecord → List RequestRecord) (s : State) : (s.modList f).image = s.image := rfl
@[simp] theorem modList_req (f : List RequestRecord → List RequestRecord) (s : State) : (s.modList f).req = { s.req with list := f s.req.list } := rfl
@[simp] theorem modList_unitA (f : List RequestRecord → List RequestRecord) (s : State) : (s.modList f).unitA = s.unitA := rfl
@[simp] theorem modList_unitB (f : List RequestRecord → List RequestRecord) (s : State) : (s.modList f).unitB = s.unitB := rfl
@[simp] theorem modList_host (f : List RequestRecord → List RequestRecord) (s : State) : (s.modList f).host = s.host := rfl
@[simp] theorem modList_trig (f : List RequestRecord → List RequestRecord) (s : State) : (s.modList f).trig = s.trig := rfl
@[simp] theorem modList_due (f : List RequestRecord → List RequestRecord) (s : State) : (s.modList f).due = s.due := rfl
@[simp] theorem modList_called (f : List RequestRecord → List RequestRecord) (s : State) : (s.modList f).called = s.called := rfl
@[simp] theorem modList_began (f : List RequestRecord → List RequestRecord) (s : State) : (s.modList f).began = s.began := rfl
@[simp] theorem modList_order (f : List RequestRecord → List RequestRecord) (s : State) : (s.modList f).order = s.order := rfl
@[simp] theorem modList_freeCount (f : List RequestRecord → List RequestRecord) (s : State) : (s.modList f).freeCount = s.freeCount := rfl
@[simp] theorem modList_serial (f : List RequestRecord → List RequestRecord) (s : State) : (s.modList f).serial = s.serial := rfl
@[simp] theorem modList_raised (f : List RequestRecord → List RequestRecord) (s : State) : (s.modList f).raised = s.raised := rfl
@[simp] theorem modList_inArrival (f : List RequestRecord → List RequestRecord) (s : State) : (s.modList f).inArrival = s.inArrival := rfl
@[simp] theorem modList_pending (f : List RequestRecord → List RequestRecord) (s : State) : (s.modList f).pending = s.pending := rfl

/-! ### modUnitA -/

@[simp] theorem modUnitA_line (f : SnapshotUnit → SnapshotUnit) (s : State) : (s.modUnit .a f).line = s.line := rfl
@[simp] theorem modUnitA_slot (f : SnapshotUnit → SnapshotUnit) (s : State) : (s.modUnit .a f).slot = s.slot := rfl
@[simp] theorem modUnitA_ctl (f : SnapshotUnit → SnapshotUnit) (s : State) : (s.modUnit .a f).ctl = s.ctl := rfl
@[simp] theorem modUnitA_pub (f : SnapshotUnit → SnapshotUnit) (s : State) : (s.modUnit .a f).pub = s.pub := rfl
@[simp] theorem modUnitA_peers (f : SnapshotUnit → SnapshotUnit) (s : State) : (s.modUnit .a f).peers = s.peers := rfl
@[simp] theorem modUnitA_image (f : SnapshotUnit → SnapshotUnit) (s : State) : (s.modUnit .a f).image = s.image := rfl
@[simp] theorem modUnitA_req (f : SnapshotUnit → SnapshotUnit) (s : State) : (s.modUnit .a f).req = s.req := rfl
@[simp] theorem modUnitA_unitA (f : SnapshotUnit → SnapshotUnit) (s : State) : (s.modUnit .a f).unitA = f s.unitA := rfl
@[simp] theorem modUnitA_unitB (f : SnapshotUnit → SnapshotUnit) (s : State) : (s.modUnit .a f).unitB = s.unitB := rfl
@[simp] theorem modUnitA_host (f : SnapshotUnit → SnapshotUnit) (s : State) : (s.modUnit .a f).host = s.host := rfl
@[simp] theorem modUnitA_trig (f : SnapshotUnit → SnapshotUnit) (s : State) : (s.modUnit .a f).trig = s.trig := rfl
@[simp] theorem modUnitA_due (f : SnapshotUnit → SnapshotUnit) (s : State) : (s.modUnit .a f).due = s.due := rfl
@[simp] theorem modUnitA_called (f : SnapshotUnit → SnapshotUnit) (s : State) : (s.modUnit .a f).called = s.called := rfl
@[simp] theorem modUnitA_began (f : SnapshotUnit → SnapshotUnit) (s : State) : (s.modUnit .a f).began = s.began := rfl
@[simp] theorem modUnitA_order (f : SnapshotUnit → SnapshotUnit) (s : State) : (s.modUnit .a f).order = s.order := rfl
@[simp] theorem modUnitA_freeCount (f : SnapshotUnit → SnapshotUnit) (s : State) : (s.modUnit .a f).freeCount = s.freeCount := rfl
@[simp] theorem modUnitA_serial (f : SnapshotUnit → SnapshotUnit) (s : State) : (s.modUnit .a f).serial = s.serial := rfl
@[simp] theorem modUnitA_raised (f : SnapshotUnit → SnapshotUnit) (s : State) : (s.modUnit .a f).raised = s.raised := rfl
@[simp] theorem modUnitA_inArrival (f : SnapshotUnit → SnapshotUnit) (s : State) : (s.modUnit .a f).inArrival = s.inArrival := rfl
@[simp] theorem modUnitA_pending (f : SnapshotUnit → SnapshotUnit) (s : State) : (s.modUnit .a f).pending = s.pending := rfl

/-! ### modUnitB -/

@[simp] theorem modUnitB_line (f : SnapshotUnit → SnapshotUnit) (s : State) : (s.modUnit .b f).line = s.line := rfl
@[simp] theorem modUnitB_slot (f : SnapshotUnit → SnapshotUnit) (s : State) : (s.modUnit .b f).slot = s.slot := rfl
@[simp] theorem modUnitB_ctl (f : SnapshotUnit → SnapshotUnit) (s : State) : (s.modUnit .b f).ctl = s.ctl := rfl
@[simp] theorem modUnitB_pub (f : SnapshotUnit → SnapshotUnit) (s : State) : (s.modUnit .b f).pub = s.pub := rfl
@[simp] theorem modUnitB_peers (f : SnapshotUnit → SnapshotUnit) (s : State) : (s.modUnit .b f).peers = s.peers := rfl
@[simp] theorem modUnitB_image (f : SnapshotUnit → SnapshotUnit) (s : State) : (s.modUnit .b f).image = s.image := rfl
@[simp] theorem modUnitB_req (f : SnapshotUnit → SnapshotUnit) (s : State) : (s.modUnit .b f).req = s.req := rfl
@[simp] theorem modUnitB_unitA (f : SnapshotUnit → SnapshotUnit) (s : State) : (s.modUnit .b f).unitA = s.unitA := rfl
@[simp] theorem modUnitB_unitB (f : SnapshotUnit → SnapshotUnit) (s : State) : (s.modUnit .b f).unitB = f s.unitB := rfl
@[simp] theorem modUnitB_host (f : SnapshotUnit → SnapshotUnit) (s : State) : (s.modUnit .b f).host = s.host := rfl
@[simp] theorem modUnitB_trig (f : SnapshotUnit → SnapshotUnit) (s : State) : (s.modUnit .b f).trig = s.trig := rfl
@[simp] theorem modUnitB_due (f : SnapshotUnit → SnapshotUnit) (s : State) : (s.modUnit .b f).due = s.due := rfl
@[simp] theorem modUnitB_called (f : SnapshotUnit → SnapshotUnit) (s : State) : (s.modUnit .b f).called = s.called := rfl
@[simp] theorem modUnitB_began (f : SnapshotUnit → SnapshotUnit) (s : State) : (s.modUnit .b f).began = s.began := rfl
@[simp] theorem modUnitB_order (f : SnapshotUnit → SnapshotUnit) (s : State) : (s.modUnit .b f).order = s.order := rfl
@[simp] theorem modUnitB_freeCount (f : SnapshotUnit → SnapshotUnit) (s : State) : (s.modUnit .b f).freeCount = s.freeCount := rfl
@[simp] theorem modUnitB_serial (f : SnapshotUnit → SnapshotUnit) (s : State) : (s.modUnit .b f).serial = s.serial := rfl
@[simp] theorem modUnitB_raised (f : SnapshotUnit → SnapshotUnit) (s : State) : (s.modUnit .b f).raised = s.raised := rfl
@[simp] theorem modUnitB_inArrival (f : SnapshotUnit → SnapshotUnit) (s : State) : (s.modUnit .b f).inArrival = s.inArrival := rfl
@[simp] theorem modUnitB_pending (f : SnapshotUnit → SnapshotUnit) (s : State) : (s.modUnit .b f).pending = s.pending := rfl

/-! ### takeSerial -/

@[simp] theorem takeSerial_line (s : State) : (s.takeSerial).line = s.line := rfl
@[simp] theorem takeSerial_slot (s : State) : (s.takeSerial).slot = s.slot := rfl
@[simp] theorem takeSerial_ctl (s : State) : (s.takeSerial).ctl = s.ctl := rfl
@[simp] theorem takeSerial_pub (s : State) : (s.takeSerial).pub = s.pub := rfl
@[simp] theorem takeSerial_peers (s : State) : (s.takeSerial).peers = s.peers := rfl
@[simp] theorem takeSerial_image (s : State) : (s.takeSerial).image = s.image := rfl
@[simp] theorem takeSerial_req (s : State) : (s.takeSerial).req = s.req := rfl
@[simp] theorem takeSerial_unitA (s : State) : (s.takeSerial).unitA = s.unitA := rfl
@[simp] theorem takeSerial_unitB (s : State) : (s.takeSerial).unitB = s.unitB := rfl
@[simp] theorem takeSerial_host (s : State) : (s.takeSerial).host = s.host := rfl
@[simp] theorem takeSerial_trig (s : State) : (s.takeSerial).trig = s.trig := rfl
@[simp] theorem takeSerial_due (s : State) : (s.takeSerial).due = s.due := rfl
@[simp] theorem takeSerial_called (s : State) : (s.takeSerial).called = s.called := rfl
@[simp] theorem takeSerial_began (s : State) : (s.takeSerial).began = s.began := rfl
@[simp] theorem takeSerial_order (s : State) : (s.takeSerial).order = s.order := rfl
@[simp] theorem takeSerial_freeCount (s : State) : (s.takeSerial).freeCount = s.freeCount := rfl
@[simp] theorem takeSerial_serial (s : State) : (s.takeSerial).serial = s.serial + 1 := rfl
@[simp] theorem takeSerial_raised (s : State) : (s.takeSerial).raised = s.raised := rfl
@[simp] theorem takeSerial_inArrival (s : State) : (s.takeSerial).inArrival = s.inArrival := rfl
@[simp] theorem takeSerial_pending (s : State) : (s.takeSerial).pending = s.pending := rfl

/-! ### raise -/

@[simp] theorem raise_line (k : EventKind) (code subject detail : Nat) (v : Word) (s : State) : (raise k code subject detail v s).line = s.line := rfl
@[simp] theorem raise_slot (k : EventKind) (code subject detail : Nat) (v : Word) (s : State) : (raise k code subject detail v s).slot = s.slot := rfl
@[simp] theorem raise_ctl (k : EventKind) (code subject detail : Nat) (v : Word) (s : State) : (raise k code subject detail v s).ctl = s.ctl := rfl
@[simp] theorem raise_pub (k : EventKind) (code subject detail : Nat) (v : Word) (s : State) : (raise k code subject detail v s).pub = s.pub := rfl
@[simp] theorem raise_peers (k : EventKind) (code subject detail : Nat) (v : Word) (s : State) : (raise k code subject detail v s).peers = s.peers := rfl
@[simp] theorem raise_image (k : EventKind) (code subject detail : Nat) (v : Word) (s : State) : (raise k code subject detail v s).image = s.image := rfl
@[simp] theorem raise_req (k : EventKind) (code subject detail : Nat) (v : Word) (s : State) : (raise k code subject detail v s).req = s.req := rfl
@[simp] theorem raise_unitA (k : EventKind) (code subject detail : Nat) (v : Word) (s : State) : (raise k code subject detail v s).unitA = s.unitA := rfl
@[simp] theorem raise_unitB (k : EventKind) (code subject detail : Nat) (v : Word) (s : State) : (raise k code subject detail v s).unitB = s.unitB := rfl
@[simp] theorem raise_host (k : EventKind) (code subject detail : Nat) (v : Word) (s : State) : (raise k code subject detail v s).host = s.host := rfl
@[simp] theorem raise_trig (k : EventKind) (code subject detail : Nat) (v : Word) (s : State) : (raise k code subject detail v s).trig = s.trig := rfl
@[simp] theorem raise_due (k : EventKind) (code subject detail : Nat) (v : Word) (s : State) : (raise k code subject detail v s).due = s.due := rfl
@[simp] theorem raise_called (k : EventKind) (code subject detail : Nat) (v : Word) (s : State) : (raise k code subject detail v s).called = s.called := rfl
@[simp] theorem raise_began (k : EventKind) (code subject detail : Nat) (v : Word) (s : State) : (raise k code subject detail v s).began = s.began := rfl
@[simp] theorem raise_order (k : EventKind) (code subject detail : Nat) (v : Word) (s : State) : (raise k code subject detail v s).order = s.order := rfl
@[simp] theorem raise_freeCount (k : EventKind) (code subject detail : Nat) (v : Word) (s : State) : (raise k code subject detail v s).freeCount = s.freeCount := rfl
@[simp] theorem raise_serial (k : EventKind) (code subject detail : Nat) (v : Word) (s : State) : (raise k code subject detail v s).serial = s.serial := rfl
@[simp] theorem raise_raised (k : EventKind) (code subject detail : Nat) (v : Word) (s : State) : (raise k code subject detail v s).raised = s.raised ++ [⟨k, code, subject, detail, v, s.slot.round⟩] := rfl
@[simp] theorem raise_inArrival (k : EventKind) (code subject detail : Nat) (v : Word) (s : State) : (raise k code subject detail v s).inArrival = s.inArrival := rfl
@[simp] theorem raise_pending (k : EventKind) (code subject detail : Nat) (v : Word) (s : State) : (raise k code subject detail v s).pending = s.pending := rfl

end Sys2Proof.Machine
end

