-- ==== Sys2Proof/Laws/Frames.lean ====
section
/-! SUPPORT. The frames of the shared operations, each said once: an operation that changes only the snapshot units, the image table, the
request list or the peer table leaves everything else. `congrArg` of a field on one of these gives the field's frame. -/

namespace Sys2Proof.Machine

/-! ### What is left of a state without some of its blocks, and without the events of the step in course -/

/-- A state without the snapshot units and the triggers of B that wait. -/
def State.outsideUnits (s : State) : State :=
  { s with unitA := SnapshotUnit.reset, unitB := SnapshotUnit.reset, called := 0, began := false, raised := [] }

/-- A state without the image table and the snapshot units. -/
def State.outsideImage (s : State) : State :=
  { s with unitA := SnapshotUnit.reset, unitB := SnapshotUnit.reset, called := 0, began := false, raised := [], image := [] }

/-- A state without the request list. -/
def State.outsideRequests (s : State) : State := { s with req := { s.req with list := [] }, raised := [] }

/-- A state without the peer table, the image table, the request list and the snapshot units. -/
def State.outsidePeers (s : State) : State :=
  { s with
    unitA := SnapshotUnit.reset, unitB := SnapshotUnit.reset, called := 0, began := false, raised := [], image := [], peers := []
    req := { s.req with list := [] } }

/-- A state without the slot map and what follows its owners. -/
def State.outsideMap (s : State) : State :=
  { s with
    unitA := SnapshotUnit.reset, unitB := SnapshotUnit.reset, called := 0, began := false, raised := [], image := [], peers := []
    req := { s.req with list := [] }
    slot := { s.slot with map := [], starved := false, outOfStep := 0 } }

/-- What is the same outside fewer blocks is the same outside more. -/
theorem outsideImage_of_units {s t : State} (h : t.outsideUnits = s.outsideUnits) : t.outsideImage = s.outsideImage :=
  (congrArg State.outsideImage h :)

theorem outsidePeers_of_image {s t : State} (h : t.outsideImage = s.outsideImage) : t.outsidePeers = s.outsidePeers :=
  (congrArg State.outsidePeers h :)

theorem outsidePeers_of_requests {s t : State} (h : t.outsideRequests = s.outsideRequests) : t.outsidePeers = s.outsidePeers :=
  (congrArg State.outsidePeers h :)

theorem outsideMap_of_peers {s t : State} (h : t.outsidePeers = s.outsidePeers) : t.outsideMap = s.outsideMap :=
  (congrArg State.outsideMap h :)

/-! ### Events -/

@[simp] theorem raise_outsideUnits (k : EventKind) (c u d : Nat) (v : Word) (s : State) :
    (raise k c u d v s).outsideUnits = s.outsideUnits := rfl

@[simp] theorem raise_outsideImage (k : EventKind) (c u d : Nat) (v : Word) (s : State) :
    (raise k c u d v s).outsideImage = s.outsideImage := rfl

@[simp] theorem raise_outsideRequests (k : EventKind) (c u d : Nat) (v : Word) (s : State) :
    (raise k c u d v s).outsideRequests = s.outsideRequests := rfl

@[simp] theorem raise_outsidePeers (k : EventKind) (c u d : Nat) (v : Word) (s : State) :
    (raise k c u d v s).outsidePeers = s.outsidePeers := rfl

/-- Events of one kind, of two lists and of none. -/
@[simp] theorem ofKind_nil (k : EventKind) : ofKind k [] = [] := rfl

@[simp] theorem ofKind_append (k : EventKind) (es fs : List EventRecord) : ofKind k (es ++ fs) = ofKind k es ++ ofKind k fs :=
  List.filter_append ..

/-- Whatever is raised, the events of one kind are those waiting, and the new one if it is of that kind. -/
theorem ofKind_raise (k kind : EventKind) (c u d : Nat) (v : Word) (s : State) :
    ofKind k (raise kind c u d v s).raised
      = ofKind k s.raised ++ if kind = k then [⟨kind, c, u, d, v, s.slot.round⟩] else [] := by
  by_cases h : kind = k <;> simp [ofKind, raise, h]

/-- The first of some events taken to the front: what a filter keeps is the same, where it keeps these events only or none of them. -/
theorem filter_cons_eraseP {α : Type} (p q : α → Bool) (l : List α) (x : α) (hx : l.find? p = some x)
    (h : (∀ a, q a = true → p a = true) ∨ ∀ a, p a = true → q a = false) (hq : ∀ a, p a = true → q a = q x) :
    (x :: l.eraseP p).filter q = l.filter q := by
  induction l with
  | nil => simp at hx
  | cons y l ih =>
    by_cases hy : p y = true
    · simp only [List.find?_cons, hy, Option.some.injEq] at hx
      subst hx
      simp [List.eraseP_cons_of_pos hy]
    · simp only [List.find?_cons, hy] at hx
      rw [List.eraseP_cons_of_neg (by simpa using hy)]
      have ih := ih hx
      by_cases hqx : q x = true
      · have hqy : q y = false := by
          rcases h with h | h
          · by_contra hc
            exact hy (h y (by simpa using hc))
          · exact absurd (h x (List.find?_some hx)) (by simp [hqx])
        simp only [List.filter_cons, hqx, hqy] at ih ⊢
        simpa using ih
      · simp only [List.filter_cons, if_neg hqx] at ih ⊢
        rw [ih]

/-- Whatever order the free choices give, each block's events stay in the order in which it raised them (log 6). -/
theorem interleave_block (b : Nat) : ∀ (n : Nat) (picks : List Nat) (es : List EventRecord), es.length ≤ n →
    (interleave n picks es).filter (·.block == b) = es.filter (·.block == b)
  | 0, _, es, _ => by rfl
  | _ + 1, _, [], _ => rfl
  | n + 1, picks, e :: es, hn => by
    unfold interleave
    split
    · rfl
    · simp only []
      generalize hp : ((e :: es).getD (picks.headD 0 % (es.length + 1)) e) = y
      have hy : y ∈ e :: es := by
        have hk : picks.headD 0 % (es.length + 1) < (e :: es).length := Nat.mod_lt _ (Nat.succ_pos _)
        rw [← hp, List.getD_eq_getElem _ _ hk]
        exact List.getElem_mem _
      have hs : ((e :: es).find? (·.block == y.block)).isSome = true := by
        rw [List.find?_isSome]
        exact ⟨y, hy, by simp⟩
      obtain ⟨x, hx⟩ := Option.isSome_iff_exists.mp hs
      have hxb := List.find?_some hx
      rw [hx, Option.getD_some]
      have hl : ((e :: es).eraseP (·.block == y.block)).length ≤ n := by
        rw [List.length_eraseP_of_mem hy (by simp)]
        simpa using hn
      rw [List.filter_cons, interleave_block b n picks.tail _ hl]
      refine List.filter_cons.symm.trans (filter_cons_eraseP _ (fun a => a.block == b) _ _ hx ?_ ?_)
      · by_cases hb : y.block = b
        · exact .inl (by simp [hb])
        · refine .inr fun a ha => ?_
          have : a.block = y.block := by simpa using ha
          simpa [this] using hb
      · intro a ha
        have h1 : a.block = y.block := by simpa using ha
        have h2 : x.block = y.block := by simpa using hxb
        simp [h1, h2]

/-- Events that one block alone raises enter the queue in the order they were raised in. -/
theorem interleave_filter (q : EventRecord → Bool) (b : Nat) (n : Nat) (picks : List Nat) (es : List EventRecord)
    (hn : es.length ≤ n) (h : ∀ e, q e = true → e.block = b) : (interleave n picks es).filter q = es.filter q := by
  have both : ∀ l : List EventRecord, l.filter q = (l.filter (·.block == b)).filter q := by
    intro l
    rw [List.filter_filter]
    apply List.filter_congr
    intro e _
    by_cases hq : q e = true <;> simp [hq, h e]
  rw [both, interleave_block b n picks es hn, ← both]

/-- Ordering events brings in no new one. -/
theorem mem_of_interleave : ∀ (n : Nat) (picks : List Nat) (es : List EventRecord), ∀ x ∈ interleave n picks es, x ∈ es
  | 0, _, _, _, hx => hx
  | _ + 1, _, [], _, hx => hx
  | n + 1, picks, e :: es, x, hx => by
    unfold interleave at hx
    split at hx
    · exact hx
    · simp only [List.mem_cons] at hx
      rcases hx with hx | hx
      · subst hx
        cases hf : (e :: es).find? (·.block == ((e :: es).getD (picks.headD 0 % (es.length + 1)) e).block) with
        | none => simp
        | some y => simpa using List.mem_of_find?_eq_some hf
      · exact List.mem_of_mem_eraseP (mem_of_interleave n picks.tail _ x hx)

/-- Ending a step takes the events raised into the queue, those of each kind in the order they were raised in; STATION's, which two blocks
raise, where none is a hold's. -/
theorem finish_takes (s : State) : ∃ es, (finish s).host = es.foldl enterEvent s.host
    ∧ (∀ k, k ≠ .station → ofKind k es = ofKind k s.raised)
    ∧ ((∀ e ∈ s.raised, e.code ≠ 4 ∧ e.code ≠ 5 ∨ e.kind ≠ .station) → ofKind .station es = ofKind .station s.raised) := by
  by_cases hr : s.raised = []
  · exact ⟨[], by simp [finish, flushEvents, freshOrder, hr], by simp [hr], by simp [hr]⟩
  · refine ⟨interleave s.raised.length s.order.eventPicks s.raised, by simp [finish, flushEvents, freshOrder, hr], ?_, ?_⟩
    · intro k hk
      unfold ofKind
      cases k with
      | station => exact absurd rfl hk
      | slot => exact interleave_filter _ 1 _ _ _ le_rfl fun e he => by simp_all [EventRecord.block]
      | peer => exact interleave_filter _ 3 _ _ _ le_rfl fun e he => by simp_all [EventRecord.block]
      | entry => exact interleave_filter _ 4 _ _ _ le_rfl fun e he => by simp_all [EventRecord.block]
      | watch => exact interleave_filter _ 4 _ _ _ le_rfl fun e he => by simp_all [EventRecord.block]
      | request => exact interleave_filter _ 5 _ _ _ le_rfl fun e he => by simp_all [EventRecord.block]
      | snapshot => exact interleave_filter _ 6 _ _ _ le_rfl fun e he => by simp_all [EventRecord.block]
      | peerWrite => exact interleave_filter _ 7 _ _ _ le_rfl fun e he => by simp_all [EventRecord.block]
    · intro h
      have same : ∀ l : List EventRecord, (∀ e ∈ l, e.code ≠ 4 ∧ e.code ≠ 5 ∨ e.kind ≠ .station) →
          ofKind .station l = l.filter fun e => e.kind == .station && e.block == 2 := by
        intro l hl
        apply List.filter_congr
        intro e he
        by_cases hk : e.kind = .station
        · have := (hl e he).resolve_right (not_not_intro hk)
          simp [hk, EventRecord.block, this]
        · simp [hk]
      rw [same _ fun e he => h e (mem_of_interleave _ _ _ e he), same _ h]
      exact interleave_filter _ 2 _ _ _ le_rfl fun e he => by simpa using (Bool.and_eq_true_iff.mp he).2

/-- Ending a step changes the event queue, the events waiting and the free choices, and nothing else. -/
theorem finish_frame (s : State) :
    finish s
      = { s with
          host := (finish s).host, raised := [], order := (finish s).order, freeCount := s.freeCount + 1 } := by
  unfold finish flushEvents freshOrder
  cases h : s.raised <;> simp [h]

/-- With no event waiting, ending a step changes only the free choices. -/
theorem finish_visible (s : State) (h : s.settled) : (finish s).visible = s.visible := by
  unfold State.settled at h
  simp [finish, flushEvents, freshOrder, State.visible, h]

/-- An event keeps every field of the host link but the queue and the lost count. -/
theorem enterEvent_frame (h : HostLink) (e : EventRecord) :
    enterEvent h e = { h with events := (enterEvent h e).events, lostEvents := (enterEvent h e).lostEvents } := by
  unfold enterEvent
  split <;> rfl

/-- The queue never grows past 32 records. -/
theorem enterEvent_events_le (h : HostLink) (e : EventRecord) (hl : h.events.length ≤ 32) :
    (enterEvent h e).events.length ≤ 32 := by
  unfold enterEvent Config.maxEvents
  split
  · simp; omega
  · exact hl

/-! ### The snapshot units -/

@[simp] theorem modUnit_outsideUnits (u : UnitId) (f : SnapshotUnit → SnapshotUnit) (s : State) :
    (s.modUnit u f).outsideUnits = s.outsideUnits := by cases u <;> rfl

@[simp] theorem startCollection_outsideUnits (u : UnitId) (s : State) :
    (startCollection u s).outsideUnits = s.outsideUnits := by simp [startCollection]

@[simp] theorem closeCollection_outsideUnits (u : UnitId) (s : State) :
    (closeCollection u s).outsideUnits = s.outsideUnits := by simp [closeCollection, raiseSnapshot]

@[simp] theorem endCollection_outsideUnits (u : UnitId) (s : State) :
    (endCollection u s).outsideUnits = s.outsideUnits := by
  simp only [endCollection]
  split <;> [split; skip] <;> simp

@[simp] theorem judgeEnd_outsideUnits (u : UnitId) (s : State) : (judgeEnd u s).outsideUnits = s.outsideUnits := by
  unfold judgeEnd
  split <;> simp

@[simp] theorem actTrigger_outsideUnits (u : UnitId) (s : State) : (actTrigger u s).outsideUnits = s.outsideUnits := by
  unfold actTrigger dropTrigger
  repeat' split
  all_goals simp

theorem called_outsideUnits (n : Nat) (s : State) : { s with called := n }.outsideUnits = s.outsideUnits := rfl

theorem began_outsideUnits (b : Bool) (s : State) : { s with began := b }.outsideUnits = s.outsideUnits := rfl

@[simp] theorem dropTrigger_outsideUnits (u : UnitId) (s : State) : (dropTrigger u s).outsideUnits = s.outsideUnits := by
  simp [dropTrigger]

@[simp] theorem answerCalls_outsideUnits (n : Nat) (s : State) : (answerCalls n s).outsideUnits = s.outsideUnits := by
  induction n generalizing s with
  | zero => rfl
  | succ n ih => simp [answerCalls, ih]

@[simp] theorem answerCall_outsideUnits (s : State) : (answerCall s).outsideUnits = s.outsideUnits := by
  rw [answerCall, answerCalls_outsideUnits, called_outsideUnits]

@[simp] theorem triggerA_outsideUnits (s : State) : (triggerA s).outsideUnits = s.outsideUnits := by
  simp [triggerA, began_outsideUnits]

@[simp] theorem triggerB_outsideUnits (s : State) : (triggerB s).outsideUnits = s.outsideUnits := by
  unfold triggerB
  repeat' split
  all_goals simp [called_outsideUnits]

@[simp] theorem takeCall_outsideUnits (s : State) : (takeCall s).outsideUnits = s.outsideUnits := by
  rw [takeCall, began_outsideUnits, answerCall_outsideUnits]

@[simp] theorem pastBeginning_outsideUnits (s : State) : (pastBeginning s).outsideUnits = s.outsideUnits := by
  simp [pastBeginning]

/-- Triggers change the units and raise SNAPSHOT events, and nothing else. -/
@[simp] theorem giveTriggers_outsideUnits (a b : Bool) (s : State) : (giveTriggers a b s).outsideUnits = s.outsideUnits := by
  cases a <;> cases b <;> simp [giveTriggers]

@[simp] theorem captureValue_outsideUnits (i : Nat) (v : Word) (s : State) :
    (captureValue i v s).outsideUnits = s.outsideUnits := by
  unfold captureValue
  repeat' split
  all_goals simp

@[simp] theorem missEntry_outsideUnits (i : Nat) (s : State) : (missEntry i s).outsideUnits = s.outsideUnits := by
  unfold missEntry
  split <;> simp

@[simp] theorem collectorOff_outsideUnits (s : State) : (collectorOff s).outsideUnits = s.outsideUnits := by
  simp only [collectorOff, modUnit_outsideUnits]
  split <;> simp [raiseSnapshot, modUnit_outsideUnits]

@[simp] theorem takeDeadline_outsideUnits (s : State) : (takeDeadline s).outsideUnits = s.outsideUnits := by
  have h : ∀ u s, (takeUnitDeadline u s).outsideUnits = s.outsideUnits := by
    intro u s
    simp only [takeUnitDeadline]
    repeat' split
    all_goals simp
  simp [takeDeadline, h]

/-! ### The image table -/

@[simp] theorem modEntry_outsideImage (i : Nat) (f : ImageEntry → ImageEntry) (s : State) :
    (s.modEntry i f).outsideImage = s.outsideImage := rfl

@[simp] theorem missEntry_outsideImage (i : Nat) (s : State) : (missEntry i s).outsideImage = s.outsideImage :=
  outsideImage_of_units (missEntry_outsideUnits i s)

@[simp] theorem evaluateWatch_outsideImage (i : Nat) (f : Format) (s : State) :
    (evaluateWatch i f s).outsideImage = s.outsideImage := by
  unfold evaluateWatch
  split
  · rfl
  · simp only []
    split
    · exact (outsideImage_of_units (giveTriggers_outsideUnits _ _ _)).trans (by simp)
    · simp

@[simp] theorem captureValue_outsideImage (i : Nat) (v : Word) (s : State) :
    (captureValue i v s).outsideImage = s.outsideImage := outsideImage_of_units (captureValue_outsideUnits i v s)

/-- Two reports that each keep everything outside the image unit keep it in either order. -/
theorem reportBoth_outsideImage {f g : State → State} (hf : ∀ s, (f s).outsideImage = s.outsideImage)
    (hg : ∀ s, (g s).outsideImage = s.outsideImage) (i : Nat) (s : State) :
    (reportBoth i f g s).outsideImage = s.outsideImage := by
  unfold reportBoth
  split <;> simp [hf, hg]

/-- The passage of an entry changes the image table and the units and raises events, and nothing else. -/
@[simp] theorem passEntry_outsideImage (i : Nat) (st : EntryState) (c : Option Nat) (s : State) :
    (passEntry i st c s).outsideImage = s.outsideImage := by
  simp only [passEntry]
  rw [reportBoth_outsideImage]
  · split <;> simp
  · intro s
    repeat' split
    all_goals simp
  · intro s
    split <;> simp

@[simp] theorem resolveEntry_outsideImage (i : Nat) (s : State) : (resolveEntry i s).outsideImage = s.outsideImage := by
  simp only [resolveEntry]
  repeat' split
  all_goals simp

/-- An action that keeps everything outside the image unit keeps it over all entries. -/
theorem forEntries_outsideImage (p : ImageEntry → Bool) {act : Nat → State → State}
    (h : ∀ i s, (act i s).outsideImage = s.outsideImage) (s : State) : (forEntries p act s).outsideImage = s.outsideImage := by
  have all : ∀ (l : List Nat) (s : State),
      (l.foldl (fun s i => if p (s.entry i) then act i s else s) s).outsideImage = s.outsideImage := by
    intro l
    induction l with
    | nil => intro s; rfl
    | cons i l ih =>
      intro s
      rw [List.foldl_cons, ih]
      split <;> simp [h]
  exact all _ s

@[simp] theorem imageKnown_outsideImage (n : Nat) (s : State) : (imageKnown n s).outsideImage = s.outsideImage :=
  forEntries_outsideImage _ (fun i s => resolveEntry_outsideImage i s) s

@[simp] theorem imageFailed_outsideImage (n : Nat) (s : State) : (imageFailed n s).outsideImage = s.outsideImage :=
  forEntries_outsideImage _ (fun i s => passEntry_outsideImage i _ _ s) s

@[simp] theorem imageRetried_outsideImage (n : Nat) (s : State) : (imageRetried n s).outsideImage = s.outsideImage :=
  forEntries_outsideImage _ (fun i s => by simp) s

@[simp] theorem imageAbsent_outsideImage (n : Nat) (s : State) : (imageAbsent n s).outsideImage = s.outsideImage :=
  forEntries_outsideImage _ (fun i s => passEntry_outsideImage i _ _ s) s

@[simp] theorem imagePresent_outsideImage (n : Nat) (s : State) : (imagePresent n s).outsideImage = s.outsideImage :=
  forEntries_outsideImage _ (fun i s => by simp only [resolveEntry_outsideImage]; split <;> simp) s

@[simp] theorem imageCleared_outsideImage (n : Nat) (s : State) : (imageCleared n s).outsideImage = s.outsideImage :=
  forEntries_outsideImage _ (fun i s => passEntry_outsideImage i _ _ s) s

/-- Values taken by entries change the image table and the units, and nothing else. -/
@[simp] theorem imageArrival_outsideImage (f : Frame) (v : Verdict) (s : State) :
    (imageArrival f v s).outsideImage = s.outsideImage := by
  unfold imageArrival
  split
  · refine forEntries_outsideImage _ (fun i s => ?_) s
    simp only [valueArrival, takeValue]
    repeat' split
    all_goals first
      | simp
      | (rw [reportBoth_outsideImage (fun s => by simp) (fun s => by simp)]; simp)
  · rfl

/-! ### The request list -/

@[simp] theorem modList_outsideRequests (f : List RequestRecord → List RequestRecord) (s : State) :
    (s.modList f).outsideRequests = s.outsideRequests := rfl

@[simp] theorem modRecord_outsideRequests (id : Nat) (f : RequestRecord → RequestRecord) (s : State) :
    (s.modRecord id f).outsideRequests = s.outsideRequests := rfl

@[simp] theorem removeRecord_outsideRequests (id : Nat) (s : State) :
    (removeRecord id s).outsideRequests = s.outsideRequests := rfl

@[simp] theorem closeRecord_outsideRequests (id : Nat) (o : RequestOutcome) (c : Content) (s : State) :
    (closeRecord id o c s).outsideRequests = s.outsideRequests := by
  simp only [closeRecord]
  repeat' split
  all_goals simp

@[simp] theorem breakChain_outsideRequests (ids failed unsuccessful : List Nat) (s : State) :
    (breakChain ids failed unsuccessful s).outsideRequests = s.outsideRequests := by
  induction ids generalizing failed s with
  | nil => rfl
  | cons id ids ih =>
    simp only [breakChain]
    repeat' split
    all_goals simp [ih]

/-- The end of a record changes the request list and raises REQUEST events, and nothing else. -/
@[simp] theorem endRecord_outsideRequests (id : Nat) (o : RequestOutcome) (c : Content) (s : State) :
    (endRecord id o c s).outsideRequests = s.outsideRequests := by
  unfold endRecord
  repeat' split
  all_goals simp

@[simp] theorem requestSent_outsideRequests (id : Nat) (s : State) : (requestSent id s).outsideRequests = s.outsideRequests := by
  simp only [requestSent]
  repeat' split
  all_goals simp

/-- A fold of actions that keep everything outside the request list keeps it. -/
theorem foldl_outsideRequests {act : State → Nat → State} (h : ∀ s id, (act s id).outsideRequests = s.outsideRequests)
    (ids : List Nat) (s : State) : (ids.foldl act s).outsideRequests = s.outsideRequests := by
  induction ids generalizing s with
  | nil => rfl
  | cons id ids ih => rw [List.foldl_cons, ih, h]

@[simp] theorem requestsAbsent_outsideRequests (n : Nat) (s : State) :
    (requestsAbsent n s).outsideRequests = s.outsideRequests :=
  foldl_outsideRequests (fun s id => by
    split
    · rfl
    · split <;> simp) _ s

@[simp] theorem requestsOff_outsideRequests (s : State) : (requestsOff s).outsideRequests = s.outsideRequests :=
  (foldl_outsideRequests (fun s id => by
    split
    · rfl
    · split <;> simp) _ _).trans (by simp)

/-! ### The peer table and the slot map -/

@[simp] theorem modPeer_outsidePeers (n : Nat) (f : PeerRecord → PeerRecord) (s : State) :
    (s.modPeer n f).outsidePeers = s.outsidePeers := by
  unfold State.modPeer
  split <;> rfl

/-- A rule that keeps everything outside the peer table keeps it over the own record. -/
theorem overOwn_outsidePeers {f : State → State} (n : Nat) (s : State) (h : (f s).outsidePeers = s.outsidePeers) :
    (overOwn n f s).outsidePeers = s.outsidePeers := by
  unfold overOwn
  split <;> simp [h]

/-- A sticky fault changes the peer table and raises PEER FAULT, and nothing else. -/
@[simp] theorem setFault_outsidePeers (n : Nat) (name : FaultName) (s : State) :
    (setFault n name s).outsidePeers = s.outsidePeers :=
  overOwn_outsidePeers n s (by split <;> simp)

@[simp] theorem imageAbsent_outsidePeers (n : Nat) (s : State) : (imageAbsent n s).outsidePeers = s.outsidePeers :=
  outsidePeers_of_image (imageAbsent_outsideImage n s)

@[simp] theorem imagePresent_outsidePeers (n : Nat) (s : State) : (imagePresent n s).outsidePeers = s.outsidePeers :=
  outsidePeers_of_image (imagePresent_outsideImage n s)

@[simp] theorem imageRetried_outsidePeers (n : Nat) (s : State) : (imageRetried n s).outsidePeers = s.outsidePeers :=
  outsidePeers_of_image (imageRetried_outsideImage n s)

@[simp] theorem requestsAbsent_outsidePeers (n : Nat) (s : State) : (requestsAbsent n s).outsidePeers = s.outsidePeers :=
  outsidePeers_of_requests (requestsAbsent_outsideRequests n s)

@[simp] theorem modList_outsidePeers (f : List RequestRecord → List RequestRecord) (s : State) :
    (s.modList f).outsidePeers = s.outsidePeers := rfl

@[simp] theorem becomeAbsent_outsidePeers (n : Nat) (s : State) : (becomeAbsent n s).outsidePeers = s.outsidePeers := by
  simp [becomeAbsent, removeDiscovery]

@[simp] theorem becomePresent_outsidePeers (n : Nat) (s : State) : (becomePresent n s).outsidePeers = s.outsidePeers := by
  simp only [becomePresent, imagePresent_outsidePeers]
  split <;> simp

/-- A change of owner changes the peer table and what follows from it, and nothing else: no slot, no station state. -/
@[simp] theorem changeOwner_outsidePeers (before after : Option Nat) (s : State) :
    (changeOwner before after s).outsidePeers = s.outsidePeers := by
  have lose : ∀ n s, (loseSlot n s).outsidePeers = s.outsidePeers := fun n s =>
    overOwn_outsidePeers n s (by dsimp only; split <;> simp)
  have gain : ∀ n s, (gainSlot n s).outsidePeers = s.outsidePeers := fun n s =>
    overOwn_outsidePeers n s (by dsimp only; split <;> simp)
  unfold changeOwner
  split
  · rfl
  · cases before <;> cases after <;> simp [lose, gain]

/-- A record's new state, with the change of owner it brings, leaves everything outside the slot map and what follows its owners. -/
@[simp] theorem setSlotState_outsideMap (k : Nat) (f : SlotRecord → SlotRecord) (s : State) :
    (setSlotState k f s).outsideMap = s.outsideMap := by
  simp only [setSlotState]
  exact (outsideMap_of_peers (changeOwner_outsidePeers _ _ _)).trans rfl

/-- A record's new state is the record's own: the change of owner touches no record. -/
theorem setSlotState_slot (k : Nat) (f : SlotRecord → SlotRecord) (s : State) :
    (setSlotState k f s).slot = { s.slot with map := s.slot.map.modify k f } :=
  (congrArg State.slot (changeOwner_outsidePeers _ _ _) :)

/-- The search for a candidate changes the slot map and the starved latch, and raises STARVED. -/
@[simp] theorem candidateSearch_outsideMap (s : State) : (candidateSearch s).outsideMap = s.outsideMap := by
  unfold candidateSearch
  repeat' split
  all_goals rfl

end Sys2Proof.Machine
end

