-- ==== Sys2Proof/Laws/Commands.lean ====
section
/-! SUPPORT. What the command unit, the liveness guard and an empty moment do, each said once. -/

namespace Sys2Proof.Machine

/-! ### The command unit -/

/-- With nothing due the moment is over. -/
theorem settle_of_nothing {s : State} (h : s.hasDue = false) : settle s = s := by simp [settle, h]

theorem takeCommand_of_ready (word : Word) (effect : List Word → State → Reply) (s : State) (h : s.ready) :
    takeCommand word effect s = startCommand word (effect s.host.args s) s.host.args := by
  obtain ⟨hi, hn, hd⟩ := h
  simp [takeCommand, hi, hn, settle_of_nothing hd]

theorem takeCommand_of_running (word : Word) (effect : List Word → State → Reply) (s : State)
    (h : (∃ w, s.host.resetting = .running w) ∨ (s.host.resetting = .idle ∧ ∃ c, s.host.running = some c)) :
    takeCommand word effect s = refuse s := by
  rcases h with ⟨w, h⟩ | ⟨h, c, hc⟩ <;> simp [takeCommand, *]

theorem takeCommand_of_held (word : Word) (effect : List Word → State → Reply) (s : State) (h : s.host.resetting = .held) :
    takeCommand word effect s = s := by simp [takeCommand, h]

/-- A command whose effect answers a result and words leaves the state its statement names. -/
theorem gives_taken {c : Instr} {word : Word} {effect : List Word → State → Reply} {s t u : State} {r : ResultCode}
    {ws : List Word} (hc : exec c s = .next (takeCommand word effect s)) (hr : s.ready)
    (he : effect s.host.args s = ⟨u, r, ws⟩) (hu : u.visible = t.visible) : Gives c s (s.taken word r ws t) := by
  refine ⟨_, hc, ?_⟩
  rw [takeCommand_of_ready _ _ _ hr, he]
  have h := congrArg (fun x : State => x.modHost fun h => { h with result := 0, running := some ⟨word, s.host.args, r, ws⟩ }) hu
  exact h

/-- A command whose effect leaves the state as it was. -/
theorem gives_taken_same {c : Instr} {word : Word} {effect : List Word → State → Reply} {s : State} {r : ResultCode}
    {ws : List Word} (hc : exec c s = .next (takeCommand word effect s)) (hr : s.ready)
    (he : effect s.host.args s = ⟨s, r, ws⟩) : Gives c s (s.taken word r ws s) := gives_taken hc hr he rfl

/-! ### Liveness -/

theorem whenLive_of_live (f : State → State) (s : State) (h : s.live) : whenLive f s = f s := if_pos h

theorem whenLive_of_not_live (f : State → State) (s : State) (h : ¬s.live) : whenLive f s = s := if_neg h

/-! ### A moment with nothing due (log 2) -/

theorem due_of_nothing {s : State} (h : s.hasDue = false) : s.due = Due.none := by
  simp only [State.hasDue, Bool.or_eq_false_iff, bne_eq_false_iff_eq] at h
  exact h.1.1.1.1

theorem called_of_nothing {s : State} (h : s.hasDue = false) : s.called = 0 ∧ s.began = false := by
  simp only [State.hasDue, Bool.or_eq_false_iff, bne_eq_false_iff_eq] at h
  exact ⟨h.1.1.1.2, h.1.1.2⟩

theorem deadlines_of_nothing {s : State} (h : s.hasDue = false) : s.unitA.deadlineDue = false ∧ s.unitB.deadlineDue = false := by
  simp only [State.hasDue, Bool.or_eq_false_iff] at h
  exact ⟨h.1.2, h.2⟩

theorem takeSlotEnd_of_clear {s : State} (hs : s.due.silence = none) (hb : s.due.boundary = false) : takeSlotEnd s = s := by
  simp [takeSlotEnd, takeSilence, takeBoundary, hs, hb]

theorem takeReactions_of_quiet {s : State}
    (h : s.due = ⟨s.due.silence, s.due.boundary, s.due.start, false, false, false, false, false, false⟩)
    (ha : s.unitA.deadlineDue = false) (hb : s.unitB.deadlineDue = false) : takeReactions s = s := by
  have d := fun f : Due → Bool => congrArg f h
  have h1 : takeListen s = s := by simp [takeListen, show s.due.listen = false from d Due.listen]
  have h2 : takeLeaving s = s := by simp [takeLeaving, show s.due.leaving = false from d Due.leaving]
  have h3 : takeHost s = s := by simp [takeHost, show s.due.host = false from d Due.host]
  have h4 : takeAges s = s := by simp [takeAges, show s.due.ages = false from d Due.ages]
  have h5 : takeWaits s = s := by simp [takeWaits, show s.due.waits = false from d Due.waits]
  have h6 : takeDeadline s = s := by simp [takeDeadline, takeUnitDeadline, State.unit, ha, hb]
  have h7 : takePeriods s = s := by simp [takePeriods, show s.due.periods = false from d Due.periods]
  simp [takeReactions, h1, h2, h3, h4, h5, h6, h7]

/-- With no discovery place free, or no peer waiting for one, none is given out (R91). -/
theorem giveDiscovery_of_nothing {s : State} (h : s.discoveryDue = false) : giveDiscovery s = s := by
  unfold giveDiscovery
  split
  · rename_i hp
    cases hn : s.nextToDiscover with
    | none => rfl
    | some n => simp [State.discoveryDue, hp, hn] at h
  · rfl

/-- With no trigger waiting, the answering of B's triggers changes nothing. -/
theorem answerCall_of_none {s : State} (h : s.called = 0) : answerCall s = s := by
  cases s
  simp only at h
  subst h
  rfl

/-- With no trigger of this moment remembered, its end changes no unit. -/
theorem takeCall_of_none {s : State} (h : s.called = 0) (hb : s.began = false) : takeCall s = s := by
  rw [takeCall, answerCall_of_none h]
  cases s
  simp only at hb
  subst hb
  rfl

/-- With nothing due and no discovery place to give out, the moment is over. -/
theorem passMoment_of_nothing {s : State} (h : s.hasDue = false) (hd : s.discoveryDue = false) : passMoment s = s := by
  simp [passMoment, h, hd]

/-! ### One bit time -/

theorem passBits_nil (s : State) : passBits [] s = s := rfl

theorem passBits_singleton (level : Level) (s : State) : passBits [level] s = bitTime level s := rfl

/-- Bit times pass one after another. -/
theorem passBits_append (before after : List Level) (s : State) :
    passBits (before ++ after) s = passBits after (passBits before s) := by simp [passBits]

/-- A row of bus time lets its bit times pass, the last of them after the others. -/
theorem passRow_of_live {s : State} (h : s.live) (before : List Level) (last : Level) :
    passRow before last s = .next (bitTime last (passBits before s)) := by
  simp [passRow, whenLive_of_live _ _ h, passBits_append, passBits_singleton]

theorem bitTime_of_quiet {s : State} (h : s.quiet) (level : Level) :
    bitTime level s = finish (endBit (hearBit level (pastBeginning s))) := by
  simp [bitTime, passMoment_of_nothing h.2.2.1 h.2.2.2]

/-- A bit time without the twenty-first dominant level of a run begins no hold. -/
theorem hearBit_of_no_hold {s : State} {level : Level} (h : (s.line.measure level).dominantRun ≤ 20 ∨ s.line.hold = true) :
    hearBit level s = readBack level (hearAtReceiver level s.line.recessiveRun (s.modLine (·.measure level))) := by
  have hm : (s.line.measure level).hold = s.line.hold := by unfold LineUnit.measure; split <;> rfl
  rcases h with h | h <;> simp [hearBit, Config.holdRun, hm, h]

theorem readBack_of_none {s : State} {level : Level} (h : s.line.tx = none) : readBack level s = s := by simp [readBack, h]

theorem takeSent_of_none {s : State} (h : s.line.tx = none) : takeSent s = s := by simp [takeSent, h]

/-- Where slot time has no event, the timer's step is a step. -/
theorem stepTimer_of_mid {s : State} (h : s.slotTimeEnds = false) :
    stepTimer s = if s.ctl.state = .off then s else s.modSlot fun u => { u with timer := u.timer + 1 } := by
  unfold stepTimer
  split
  · rfl
  · rename_i hs
    simp only [State.slotTimeEnds, Bool.and_eq_false_iff, Bool.or_eq_false_iff, bne_eq_false_iff_eq, beq_eq_false_iff_ne] at h
    rcases h with h | ⟨h, h'⟩
    · exact absurd h hs
    · simp only [h, if_false]
      by_cases ht : s.slot.timer + 1 = Config.sendPoint
      · simp only [modSlot_slot, ht, if_true]
        have h' := h'.resolve_left (not_not_intro ht)
        cases hx : s.line.tx with
        | none => simp [takeSendPoint, hx]
        | some t =>
          simp only [hx, Option.any_some, Bool.not_eq_false'] at h'
          simp [takeSendPoint, hx, h']
      · rw [if_neg]
        exact ht

/-- With no event of slot time, and no frame to end, a bit time ends with the timer's step and what the line has come to. -/
theorem endBit_of_mid {s : State} (ht : s.line.tx = none) (h : s.slotTimeEnds = false) :
    endBit s = takeLineEnd (if s.ctl.state = .off then s else s.modSlot fun u => { u with timer := u.timer + 1 }) := by
  simp [endBit, takeSent_of_none ht, h, stepTimer_of_mid h]

end Sys2Proof.Machine
end

