-- ==== Sys2Proof/Tests/Slice0.lean ====
section
/-! SUPPORT. Tests on small states: the well-formedness smoke, worked values of the manual, and for each statement states and operands that
meet its hypotheses, clause by clause, with the outcome the clause names. -/

set_option Elab.async false

namespace Sys2Proof.Tests

open Sys2Proof.Machine

/-! ### States to test on -/

/-- The free choices a test takes: each its first value. No test rests on them, but a test must evaluate. -/
def order0 : Order :=
  ⟨false, false, false, false, false, false, false, false, false, false, false, false, false, false, [], 0, false, []⟩

/-- The state after reset. -/
def blank : State := { State.reset with order := order0 }

/-- A command answers a next state that is `t` in everything but the free choices. -/
def gives (c : Instr) (s t : State) : Bool :=
  match exec c s with
  | .next u => decide (u.visible = t.visible)
  | .fault _ => false
  | .refused _ => false

/-- A command answers exactly `t`. -/
def equals (c : Instr) (s t : State) : Bool :=
  match exec c s with
  | .next u => decide (u = t)
  | .fault _ => false
  | .refused _ => false

/-- A command answers a next state of which `p` holds. -/
def leads (c : Instr) (s : State) (p : State → Bool) : Bool :=
  match exec c s with
  | .next u => p u
  | .fault _ => false
  | .refused _ => false

/-- A step answers a next state that is `t` in everything but the free choices. -/
def stepGives (s t : State) : Bool :=
  match step s with
  | .next u => decide (u.visible = t.visible)
  | .fault _ => false
  | .refused _ => false

/-- The ARG words of a state, and its station state. -/
def withArgs (ws : List Word) (s : State) : State := { s with host := { s.host with args := ws } }
def inState (st : StationState) (s : State) : State := { s with ctl := { s.ctl with state := st } }

def clear : SlotRecord := ⟨.free, false, false, false⟩
def shape8 : Shape := ⟨.w8, .unsigned, .published⟩
def peer2 : PeerRecord :=
  { PeerRecord.reset with
    presence := .present, heardSlots := 1, catalogue := .known, shapes := some shape8 :: List.replicate 31 none, count := some 1
    layout := some ⟨8, [some 0]⟩ }
def point8 : Point := ⟨⟨.w8, .unsigned, .both, 3, 200, [0x41], []⟩, 5, 0⟩
def watch0 : Watch := ⟨10, 20, true, true, true, .inside⟩
def fresh0 : ImageEntry := ⟨.fresh, 2, 0, 3, 1, 15, 4, none, some ⟨0, .w8, .unsigned⟩, some watch0⟩
def waiting1 : ImageEntry := ⟨.waiting, 2, 0, 3, 0, 0, 0, some 7, some ⟨0, .w8, .unsigned⟩, none⟩
def resolving2 : ImageEntry := ⟨.resolving, 3, 4, 2, 0, 0, 0, none, none, none⟩

/-- A MEMBER, station 1 of a round of 8 slots: slot 0 OWNED, slot 1 HEARD by 2, slot 2 CLAIMING; peer 2 KNOWN. -/
def member : State :=
  { blank with
    ctl := ⟨⟨1, 8, 1, 2, 10⟩, .member, 0, 0, 3, Cond.clear⟩
    slot :=
      ⟨20, 3, 7, [⟨.owned 1, false, false, false⟩, ⟨.heard 2 0, true, false, true⟩, ⟨.claiming 1, false, false, false⟩, clear, clear,
        clear, clear, clear], false, 0⟩
    pub := { blank.pub with catalogue := [point8] }
    peers := PeerRecord.reset :: peer2 :: List.replicate 30 PeerRecord.reset
    image := fresh0 :: waiting1 :: resolving2 :: List.replicate 125 ImageEntry.free }

/-- The same station OFF, as leaving it would. -/
def off : State := { blank with ctl := { member.ctl with state := .off }, slot := { member.slot with map := List.replicate 8 clear } }

def record0 : RequestRecord :=
  ⟨0, 4, .application, 2, .readPoint, 0, none, none, false, .waiting, 0, 0, none, .nothing⟩

/-- `member` with requests. -/
def asking (rs : List RequestRecord) : State := { member with req := { member.req with list := rs }, serial := 9 }

def armedA : SnapshotUnit := { SnapshotUnit.reset with state := .armed, set := [0, 2], trigger := .command, deadline := 2 }
def armedB : SnapshotUnit := { armedA with hold := true, set := [1] }
def units (a b : SnapshotUnit) : State := { member with unitA := a, unitB := b }
def collectingA : SnapshotUnit :=
  { armedA with state := .collecting, start := 7, places := [⟨0, .pending, 0, 0⟩, ⟨2, .missing, 0, 7⟩] }
def begunA : SnapshotUnit := { collectingA with begunNow := true }

def onLine (l : LineUnit → LineUnit) : State := { member with line := l member.line }
def claimTx : Transmission := ⟨.claimFrame, 2, List.replicate 10 0, none, none, .sending 0, false, false⟩
def slotTx : Transmission := ⟨.slotFrame, 0, List.replicate 12 0, none, none, .sending 0, false, false⟩

/-- A slot frame of a station, in a slot, with what it carries. -/
def frameOf (source slot : Nat) : Frame := ⟨.slotFrame, source, slot, 71, 9, Cond.clear, none, none, [0x2A]⟩
/-- One recessive bit time before the end of an arrival of these bytes. -/
def reception (own : Bool) (bytes : List Byte) : Reception := ⟨some 3, own, bytes, false, false, .gap 11⟩
def hearing (r : Reception) : State := onLine fun l => { l with receiver := .inside r }

/-! ### Well-formedness: a term of each shape the check takes, and one it refuses -/

theorem test_wellFormed_hostCommands :
    (Instr.reset 0 7).wellFormed = true ∧ (Instr.reset 1 7).wellFormed = false ∧ (Instr.configure 64 0).wellFormed = false
      ∧ (Instr.definePoint 2 0).wellFormed = false ∧ (Instr.clearCatalogue 1 0).wellFormed = false
      ∧ (Instr.join 1 0).wellFormed = false ∧ (Instr.leave 1 0).wellFormed = false ∧ (Instr.setCondition 1 0).wellFormed = false
      ∧ (Instr.feed 1 0).wellFormed = false ∧ (Instr.setPoint 1 0).wellFormed = false ∧ (Instr.getPoint 1 0).wellFormed = false
      ∧ (Instr.subscribe 1 0).wellFormed = false ∧ (Instr.unsubscribe 1 0).wellFormed = false
      ∧ (Instr.readImage 1 0).wellFormed = false ∧ (Instr.setWatch 1 0).wellFormed = false
      ∧ (Instr.clearWatch 1 0).wellFormed = false ∧ (Instr.readPeer 1 0).wellFormed = false
      ∧ (Instr.readShape 1 0).wellFormed = false ∧ (Instr.refreshPeer 1 0).wellFormed = false
      ∧ (Instr.readSlot 1 0).wellFormed = false ∧ (Instr.sendRequest 1 0).wellFormed = false
      ∧ (Instr.takeResult 1 0).wellFormed = false ∧ (Instr.cancelRequest 1 0).wellFormed = false
      ∧ (Instr.setSnapshot 1 0).wellFormed = false ∧ (Instr.fireSnapshot 1 0).wellFormed = false
      ∧ (Instr.rearmSnapshot 1 0).wellFormed = false ∧ (Instr.readSnapshot 1 0).wellFormed = false
      ∧ (Instr.takeEvent 1 0).wellFormed = false ∧ (Instr.readCounters 1 0).wellFormed = false := by decide

theorem test_wellFormed_unknownCode :
    (Instr.unknownCommandCode 0 0 5).wellFormed = true ∧ (Instr.unknownCommandCode 0 29 5).wellFormed = true
      ∧ (Instr.unknownCommandCode 0 28 5).wellFormed = false ∧ (Instr.unknownCommandCode 1 29 5).wellFormed = false := by decide

theorem test_wellFormed_refusedAndWindow :
    (Instr.commandWriteRefused 0x00020000).wellFormed = true ∧ (Instr.commandWriteRefused 0x80020000).wellFormed = false
      ∧ (Instr.commandWriteRefused 0x00010000).wellFormed = false ∧ (Instr.windowWrite 3 0).wellFormed = true
      ∧ (Instr.windowWrite 0 0x80000000).wellFormed = true ∧ (Instr.windowWrite 0 0).wellFormed = false := by decide

theorem test_wellFormed_line :
    (Instr.statusRead 2).wellFormed = true ∧ (Instr.statusRead 1).wellFormed = false
      ∧ (Instr.startBitTaken [.recessive] .dominant).wellFormed = true ∧ (Instr.startBitTaken [] .recessive).wellFormed = false
      ∧ (Instr.arrivalEnd [] .recessive).wellFormed = true ∧ (Instr.arrivalEnd [] .dominant).wellFormed = false
      ∧ (Instr.transmissionSent [] .recessive).wellFormed = true ∧ (Instr.transmissionSent [] .dominant).wellFormed = false
      ∧ (Instr.holdBegin [] .dominant).wellFormed = true ∧ (Instr.holdBegin [.dominant] .recessive).wellFormed = false
      ∧ (Instr.holdEnd [] .recessive).wellFormed = true ∧ (Instr.holdEnd [.recessive] .dominant).wellFormed = false := by decide

/-- No row of the table has bits, so no word spells a command and none is put in the queue. -/
theorem test_noWordSpellsACommand :
    decodeTableWord 32 0x00020000 = none ∧ (blank.withFetchWord 32 0x00020000).pending = [] := by decide

/-! ### The queue, own time, reset -/

theorem test_stepTakesTheFrontCommand :
    step { blank with pending := [.feed 0 0, .join 0 0] } = exec (.feed 0 0) { blank with pending := [.join 0 0] } := rfl

theorem test_commandsLeaveTheQueue :
    leads (.leave 0 0) { member with pending := [.join 0 0] } (fun t => t.pending == [.join 0 0]) = true := by decide +kernel

/-- With no frame: in OFF, and at the timer's last step but one. With a frame: the first level goes out, and the receiver hears it. -/
theorem test_ownTime :
    (blank.pending = [] ∧ blank.midSlot ∧ (blank.heard blank.txd).ended = false ∧ blank.txeOn = false
        ∧ stepGives blank (blank.afterBit .recessive) = true)
      ∧ (let s : State := inState .listening { blank with slot := { blank.slot with timer := 1022 } }
        s.midSlot ∧ stepGives s { s with slot := { s.slot with timer := 1023 }, line := { s.line with run := 1 } } = true)
      ∧ (let s := onLine fun l => { l with tx := some claimTx, run := 12 }
        s.midSlot ∧ (s.heard s.txd).ended = false ∧ claimTx.level = .dominant ∧ s.txd = .dominant
          ∧ s.noHold .dominant
          ∧ stepGives s
              { s.afterBit .dominant with
                line :=
                  { s.line.measure .dominant with
                    receiver := .inside ⟨some 3, false, [], false, false, .data 0 0⟩
                    tx := some { claimTx with phase := .sending 1 } } } = true) := by decide +kernel

theorem test_resetRunsAndCompletes :
    (member.host.resetting ≠ .held
      ∧ gives (.reset 0 5) member
          { State.reset with
            host := { HostLink.reset with result := 0, resetting := .running 0x00010005 }
            trig := member.trig } = true)
      ∧ (let s : State := { blank with host := { blank.host with result := 0, resetting := .running 0x00010005 }, trig := ⟨true, false⟩ }
        gives .resetComplete s { blank with trig := ⟨true, true⟩ } = true) := by decide +kernel

theorem test_resetn :
    leads .resetnAssert member (fun t => t.host.resetting == .held && t.attnHigh && !t.txeOn && t.txd == .recessive && t.sdo true 0 == none) = true
      ∧ (let s : State := { blank with host := { blank.host with resetting := .held } }
        s.host.resetting = .held ∧ equals (.feed 0 0) s s = true
          ∧ gives .resetnRelease s
              { State.reset with host := { HostLink.reset with result := 0, resetting := .running 0x00010000 } } = true)
      ∧ (let s : State := { member with host := { member.host with resetting := .running 0x00010000 } }
        s.host.resetting ≠ .idle ∧ equals (.endOfSlot [] .dominant) s s = true ∧ equals .roundBoundary s s = true
          ∧ equals (.trigEdge true) s { s with trig := ⟨true, false⟩ } = true ∧ equals (.trigEdge false) s s = true
          ∧ equals (.windowWrite 3 9) s s = true ∧ equals (.windowWrite 10 9) s s = true) := by decide +kernel

/-! ### The host link -/

theorem test_commandsAreTakenOneAtATime :
    ( let s : State := { blank with host := { blank.host with running := some ⟨0x00080000, [], .ok, []⟩ } }
      (0x000A0000 : Word).msb = false ∧ commandWordCode 0x000A0000 ≠ 1 ∧ s.host.resetting = .idle
        ∧ equals (.commandWriteRefused 0x000A0000) s { s with host := { s.host with refused := true } } = true)
      ∧ (let s : State := { blank with host := { blank.host with resetting := .running 0x00010000 } }
        equals (.commandWriteRefused 0x000A0000) s { s with host := { s.host with refused := true } } = true)
      ∧ blank.ready ∧ gives (.unknownCommandCode 0 0 9) blank (blank.taken 0x00000009 .badArgument [] blank) = true
      ∧ gives (.unknownCommandCode 0 29 9) blank (blank.taken 0x001D0009 .badArgument [] blank) = true := by decide +kernel

theorem test_completion :
    let s : State := withArgs [1, 2, 3, 4, 5, 6, 7, 8] { blank with host := { blank.host with running := some ⟨0x000A00C8, [], .ok, [77, 2]⟩ } }
    s.host.resetting = .idle
      ∧ leads .commandCompletion (withArgs [1, 2, 3, 4, 5, 6, 7, 8] s)
          (fun t => t.host.args == [77, 2, 3, 4, 5, 6, 7, 8] && t.host.result == 0x010A00C8 && t.windowRead 0 == 0) = true := by
  decide +kernel

/-- A MEMBER with one OWNED and one CLAIMING slot, three events and a set refused flag. -/
theorem test_status :
    let e : EventRecord := ⟨.slot, 1, 0, 0, 0, 0⟩
    let s : State := { member with host := { member.host with events := [e, e, e], refused := true } }
    s.ownedCount ≤ 4 ∧ s.claimingCount ≤ 4 ∧ s.host.events.length ≤ 32 ∧ s.host.resetting ≠ .held ∧ s.statusWord = 0x04030113
      ∧ equals (.statusRead 2) s { s with host := { s.host with shiftOut := 0x04030113, refused := false } } = true := by decide +kernel

/-- A word of another address is sampled with no effect but its shifting out; SDO is driven only while SCSN is low. -/
theorem test_otherWordsAreSampled :
    let s : State := withArgs [0x80000001, 0, 0, 0, 0, 0, 0, 9] { member with host := { member.host with refused := true } }
    let sampled (w : Word) : State := { s with host := { s.host with shiftOut := w } }
    s.host.resetting ≠ .held ∧ s.hasDue = false ∧ equals (.statusRead 3) s (sampled 0x80000001) = true
      ∧ equals (.statusRead 10) s (sampled 9) = true ∧ equals (.statusRead 11) s (sampled 0) = true
      ∧ equals (.statusRead 1) s (sampled 0x01010000) = true ∧ equals (.statusRead 0) s (sampled 0) = true
      ∧ (sampled 0x80000001).sdo true 0 = some true ∧ (sampled 0x80000001).sdo true 1 = some false
      ∧ (sampled 0x80000001).sdo true 31 = some true ∧ (sampled 0x80000001).sdo false 0 = none := by decide +kernel

/-- COMMAND reads the word of the command or of the reset that runs, RESULT its own word. -/
theorem test_windowOfARunningCommand :
    let running : State := { blank with host := { blank.host with running := some ⟨0x00080005, [], .ok, []⟩ } }
    let resetting : State := { blank with host := { blank.host with resetting := .running 0x00010005 } }
    let done : State := { blank with host := { blank.host with result := 0x010A00C8 } }
    let shown (s : State) (w : Word) : State := { s with host := { s.host with shiftOut := w } }
    running.host.resetting = .idle ∧ running.hasDue = false ∧ equals (.statusRead 0) running (shown running 0x00080005) = true
      ∧ equals (.statusRead 0) resetting (shown resetting 0x00010005) = true
      ∧ equals (.statusRead 1) done (shown done 0x010A00C8) = true := by decide +kernel

theorem test_windowWrite :
    blank.host.resetting = .idle
      ∧ equals (.windowWrite 3 9) blank { blank with host := { blank.host with args := [9, 0, 0, 0, 0, 0, 0, 0] } } = true
      ∧ equals (.windowWrite 10 9) blank { blank with host := { blank.host with args := [0, 0, 0, 0, 0, 0, 0, 9] } } = true
      ∧ equals (.windowWrite 1 9) blank blank = true ∧ equals (.windowWrite 2 9) blank blank = true
      ∧ equals (.windowWrite 11 9) blank blank = true ∧ equals (.windowWrite 127 9) blank blank = true
      ∧ equals (.windowWrite 0 0x80080000) blank blank = true := by decide +kernel

/-- A boundary counted and not yet taken reaches the host-loss timer before a FEED, a sample of STATUS and an edge of TRIG. -/
theorem test_commandsComeAfterTheMoment :
    let s : State := { member with due := { Due.none with host := true } }
    s.live ∧ s.host.running = none ∧ s.hasDue = true ∧ (settle s).hasDue = false ∧ (settle s).ctl.hostLoss = 4
      ∧ leads (.feed 0 0) s (fun t => t.ctl.hostLoss == 0 && t.due == Due.none) = true
      ∧ leads (.statusRead 2) s (fun t => t.ctl.hostLoss == 4 && t.due == Due.none) = true
      ∧ s.trig.pin ≠ true ∧ leads (.trigEdge true) s (fun t => t.ctl.hostLoss == 4 && t.trig == ⟨true, true⟩) = true := by
  decide +kernel

/-- A boundary counted before LEAVE, and not yet taken, is no boundary of the leaving sequence (R51). -/
theorem test_leavingCountsFromItsEntry :
    leads (.leave 0 0) { member with due := { Due.none with leaving := true } }
      (fun t => t.ctl.state == .leaving && t.ctl.leaving == 0 && t.due == Due.none) = true := by decide +kernel

/-- A window write to COMMAND with bit 31 clear is the command it spells (log 13). -/
theorem test_windowWriteOfACommand :
    gives (.windowWrite 0 0x00080005) blank (blank.taken 0x00080005 .ok [] blank) = true := by decide +kernel

/-- The manual's framing: address byte 83h and two words write ARG0 and ARG1; a read of 01h samples RESULT, then STATUS. -/
theorem test_spiFraming :
    spiTransaction ([true, false, false, false, false, false, true, true] ++ List.replicate 31 false ++ [true]
        ++ List.replicate 32 true ++ List.replicate 31 true)
        = [.windowWrite 3 1, .windowWrite 4 0xFFFFFFFF]
      ∧ spiTransaction (List.replicate 7 false ++ [true] ++ List.replicate 33 false) = [.statusRead 1, .statusRead 2]
      ∧ spiTransaction (List.replicate 7 false ++ [true] ++ List.replicate 32 false) = [.statusRead 1]
      ∧ writesFrom 127 [5, 6] = [.windowWrite 127 5, .windowWrite 0 6] := by decide +kernel

/-- A transaction of less than an address byte, a write without a whole word, a read of no word and one that runs over 7Fh. -/
theorem test_spiFramingAtItsEdges :
    spiTransaction (List.replicate 7 true) = [] ∧ spiTransaction (List.replicate 39 true) = []
      ∧ spiTransaction (false :: List.replicate 7 true) = []
      ∧ spiTransaction (false :: List.replicate 40 true) = [.statusRead 127, .statusRead 0] := by decide +kernel

theorem test_takeEvent :
    let e : EventRecord := ⟨.peerWrite, 1, 3, 9, 0x55, 0x1234⟩
    let s : State := { blank with host := { blank.host with events := [e, e], lostEvents := 6 } }
    s.ready
      ∧ gives (.takeEvent 0 0) s
          (s.taken 0x001B0000 .ok [0x08010309, 0x55, 0x1234, 0x06000001] { s with host := { s.host with events := [e], lostEvents := 0 } })
          = true
      ∧ gives (.takeEvent 0 0) { blank with host := { blank.host with lostEvents := 255 } }
          (blank.taken 0x001B0000 .empty [0, 0, 0, 0xFF000000] blank) = true := by decide +kernel

/-- The 32nd event enters at the tail; with 32 records an event is lost and counted, up to 255 (R168). -/
theorem test_eventsEnter :
    let e (k : Nat) : EventRecord := ⟨.slot, 1, k, 0, 0, 0⟩
    let h (n : Nat) (lost : Byte) : HostLink := { blank.host with events := List.replicate n (e 0), lostEvents := lost }
    (h 31 5).events.length < 32 ∧ (enterEvent (h 31 5) (e 9)).events = List.replicate 31 (e 0) ++ [e 9]
      ∧ (enterEvent (h 31 5) (e 9)).lostEvents = 5 ∧ 32 ≤ (h 32 5).events.length ∧ enterEvent (h 32 5) (e 9) = h 32 6
      ∧ enterEvent (h 32 254) (e 9) = h 32 255 ∧ enterEvent (h 32 255) (e 9) = h 32 255 := by decide +kernel

/-! ### Station control -/

theorem test_configure :
    ( let s := withArgs [32, 64, 3, 4, 255] off
      s.ready ∧ s.ctl.state = .off
        ∧ gives (.configure 0 0) s
            (s.taken 0x00020000 .ok []
              { s with
                ctl := { s.ctl with config := ⟨32, 64, 3, 4, 255⟩ }
                slot := { s.slot with map := List.replicate 64 ⟨.free, false, false, false⟩ } }) = true)
      ∧ (let s := withArgs [1, 7, 3, 4, 255] off
        gives (.configure 0 0) s (s.taken 0x00020000 .badArgument [] s) = true)
      ∧ (let s := withArgs [1, 8, 3, 4, 255] member
        s.ctl.state ≠ .off ∧ gives (.configure 0 0) s (s.taken 0x00020000 .wrongState [] s) = true) := by decide +kernel

theorem test_join :
    ( let s := withArgs [1] off
      s.ready ∧ s.settled ∧ s.ctl.state = .off ∧ s.ctl.config.station ≠ 0 ∧ s.argNat 0 = 1 ∧ s.ctl.config.want ≠ 0
        ∧ gives (.join 0 0) s
            (s.taken 0x00050000 .ok []
              ({ s with
                  ctl := { s.ctl with state := .listening, listening := 0, hostLoss := 0 }
                  slot := { s.slot with timer := 0, counter := 0 } }.withEvent .station 1 1 1 1)) = true)
      ∧ (let s := withArgs [2] off
        leads (.join 0 0) s (fun t => t.ctl.state == .observer) = true)
      ∧ (let s := withArgs [3] off
        gives (.join 0 0) s (s.taken 0x00050000 .badArgument [] s) = true)
      ∧ (let s := withArgs [1] blank
        s.ctl.config.station = 0 ∧ gives (.join 0 0) s (s.taken 0x00050000 .wrongState [] s) = true) := by decide +kernel

theorem test_leave :
    (off.ready ∧ off.settled ∧ gives (.leave 0 0) off (off.taken 0x00060000 .wrongState [] off) = true)
      ∧ (let s := inState .leaving member
        gives (.leave 0 0) s (s.taken 0x00060000 .ok [] s) = true)
      ∧ (0 < member.ownedCount
        ∧ gives (.leave 0 0) member
            (member.taken 0x00060000 .ok []
              ({ member with
                  ctl := { member.ctl with state := .leaving, leaving := 0, cond := ⟨false, true, false⟩ }
                  slot := { member.slot with map := member.slot.map.set 2 clear } }.withEvent .station 1 1 5 5)) = true)
      ∧ leads (.leave 0 0) (inState .observer off) (fun t => t.ctl.state == .off && (t.host.running.map (·.result)) == some .ok) = true
      ∧ (let s : State := inState .claiming { off with slot := { off.slot with map := off.slot.map.set 4 ⟨.claiming 0, false, false, false⟩ } }
        s.ownedCount = 0 ∧ leads (.leave 0 0) s (fun t => t.ctl.state == .off && t.claimingCount == 0) = true) := by decide +kernel

/-- The events of the immediate leave: one from LISTENING and OBSERVER, two from CLAIMING. -/
theorem test_leaveEvents :
    let left (st : StationState) (events : List EventRecord) : Bool :=
      leads (.leave 0 0) (inState st off) fun t => t.ctl.state == .off && t.claimingCount == 0 && t.host.events == events
    (inState .claiming off).ownedCount = 0 ∧ left .listening [⟨.station, 1, 1, 5, 0, 7⟩] = true
      ∧ left .observer [⟨.station, 1, 1, 5, 0, 7⟩] = true
      ∧ left .claiming [⟨.station, 1, 1, 5, 5, 7⟩, ⟨.station, 1, 1, 6, 0, 7⟩] = true := by decide +kernel

/-- Entering OFF: the FRESH entry RESOLVING with its age and updates kept, the application record ABORTED, the tables at their reset values. -/
theorem test_enterOff :
    let t := enterOff 7 (asking [record0])
    ((asking [record0]).req.list.map (·.id)).Nodup ∧ t.ctl.state = .off ∧ (t.entry 0).state = .resolving ∧ (t.entry 1).value = 0
      ∧ t.req.list = [{ record0 with state := .failed, outcome := some .aborted }] ∧ t.slot.round = 7
      ∧ t.raised.map (·.kind) = [.station, .request] := by decide +kernel

/-- Entering OFF: discovery records go, ended ones stay, the others are ABORTED in list order; a watched entry without a fallback has zone
UNKNOWN, with one it is placed on the fallback, or keeps its zone where nothing is substituted; a frame being sent will give no report. -/
theorem test_enterOffOfEachBlock :
    let ended : RequestRecord := { record0 with id := 1, tag := 5, state := .failed, outcome := some .noAnswer }
    let sent : RequestRecord := { record0 with id := 2, tag := 6, state := .sent, attempts := 1, wait := 1 }
    let s : State :=
      { asking [{ record0 with origin := .discovery, id := 3, tag := 7 }, record0, ended, sent] with
        image := [fresh0, { fresh0 with fallback := some 25 }, { waiting1 with watch := some watch0 }, resolving2]
        line := { member.line with tx := some slotTx } }
    let t := enterOff 7 s
    let aborted (r : RequestRecord) : RequestRecord := { r with state := .failed, outcome := some .aborted }
    (s.req.list.map (·.id)).Nodup ∧ t.req.list = [aborted record0, ended, aborted sent]
      ∧ ofKind .request t.raised = [⟨.request, 8, 4, 2, 0, 7⟩, ⟨.request, 8, 6, 2, 0, 7⟩]
      ∧ ofKind .station t.raised = [⟨.station, 1, 1, 7, 0, 7⟩]
      ∧ t.entry 0 = { fresh0 with state := .resolving, layout := none, watch := some { watch0 with zone := .unknown } }
      ∧ t.entry 1
        = { fresh0 with
            state := .resolving, layout := none, value := 25, fallback := some 25
            watch := some { watch0 with zone := .above } }
      ∧ t.entry 2 = { waiting1 with state := .resolving, layout := none, watch := some watch0 } ∧ t.entry 3 = resolving2
      ∧ t.line = { s.line with tx := some { slotTx with offSince := true }, lost := [] } := by decide +kernel

/-- Entering OFF with A COLLECTING and B PENDING, the collector reacting first or after the entries; and with no collection. -/
theorem test_enterOffEndsTheCollection :
    let missed : List Place := [⟨0, .missing, 0, 7⟩, ⟨2, .missing, 0, 7⟩]
    ( let s := units collectingA { armedB with state := .pending }
      let aborted : SnapshotUnit := { collectingA with state := .armed, summary := .aborted, places := missed }
      let t := enterOff 7 s
      s.due.periods = false ∧ s.called = 0 ∧ (∀ e ∈ s.image, e.state = .fresh → e.fallback = none ∨ e.watch = none)
        ∧ collectorOff s = { units aborted armedB with raised := [⟨.snapshot, 3, 1, 0, 2, 7⟩] }
        ∧ t.unitA = aborted ∧ t.unitB = armedB ∧ ⟨.snapshot, 3, 1, 0, 2, 7⟩ ∈ t.raised ∧ (t.entry 0).age = 1
        ∧ (t.entry 0).updates = 4 ∧ (t.entry 0).layout = none ∧ (t.entry 1).value = 0 ∧ t.entry 2 = resolving2
        ∧ t.entry 3 = ImageEntry.free)
      ∧ (let s : State := { units collectingA { armedB with state := .pending } with order := { order0 with offAfter := 128 } }
        let t := enterOff 7 s
        t.unitA = { collectingA with state := .armed, summary := .incomplete, places := missed } ∧ t.unitB.state = .armed
          ∧ t.unitB.summary = .incomplete ∧ ⟨.snapshot, 2, 1, 0, 2, 7⟩ ∈ t.raised)
      ∧ (let s := units { armedA with state := .spent } armedB
        (enterOff 7 s).unitA = s.unitA ∧ (enterOff 7 s).unitB = armedB) := by decide +kernel

/-- The blocks but the station's as entering OFF leaves those of `s`: peers, entries, requests, answers, units and line. -/
def emptied (s t : State) : Bool :=
  t.ctl.state == .off && t.peers == s.peers.map (fun _ => PeerRecord.reset) && t.pub == { s.pub with answers := [] }
    && t.image == s.image.map (fun e => if e.state = .free then e else e.passed .resolving)
    && t.req.list == s.req.list.map (fun r => { r with state := .failed, outcome := some .aborted }) && t.line.lost == []
    && t.unitA.state == .armed && t.unitA.summary == .aborted && t.unitB == s.unitB && t.due == Due.none
    && ofKind .request t.host.events == s.req.list.map (fun r => ⟨.request, 8, r.tag, r.target, 0, 7⟩)
    && ofKind .snapshot t.host.events == [⟨.snapshot, 3, 1, 0, 2, 7⟩] && ofKind .entry t.host.events == []

/-- LEAVE, the last frame in LEAVING, its LOST report and the leaving limit leave a request, three entries, a PRESENT peer and a collection as
entering OFF does. -/
theorem test_leavingEmptiesTheBlocks :
    let s (st : StationState) : State := inState st { asking [record0] with unitA := collectingA, unitB := armedB }
    let noSlot (s : State) : State := { s with slot := { s.slot with map := List.replicate 8 clear } }
    let sending : Transmission := { slotTx with phase := .sending 119, bytes := List.replicate 12 0xFF }
    let sent : State := { s .leaving with line := { member.line with tx := some sending } }
    let limit : State := { s .leaving with ctl := { (s .leaving).ctl with leaving := 1 }, due := { Due.none with leaving := true } }
    let lost : State := { s .leaving with line := { (hearing (reception false (List.replicate 9 0))).line with lost := [slotTx] } }
    (noSlot (s .observer)).ready ∧ sent.midSlot ∧ limit.live ∧ lost.midSlot
      ∧ leads (.leave 0 0) (noSlot (s .observer)) (emptied (s .observer)) = true
      ∧ leads (.leave 0 0) (noSlot (s .claiming)) (emptied (s .claiming)) = true
      ∧ leads (.transmissionSent [] .recessive) sent (emptied sent) = true
      ∧ leads .leavingLimit limit (emptied limit) = true
      ∧ leads (.arrivalEnd [] .recessive) lost (emptied lost) = true := by decide +kernel

theorem test_setConditionAndFeed :
    ( let s := withArgs [1] member
      s.ready ∧ gives (.setCondition 0 0) s (s.taken 0x00070000 .ok [] { s with ctl := { s.ctl with cond := ⟨false, false, true⟩ } }) = true)
      ∧ (let s := withArgs [0] { member with ctl := { member.ctl with cond := ⟨false, false, true⟩ } }
        gives (.setCondition 0 0) s (s.taken 0x00070000 .ok [] { s with ctl := { s.ctl with cond := ⟨false, false, false⟩ } }) = true)
      ∧ (let s := withArgs [2] member
        gives (.setCondition 0 0) s (s.taken 0x00070000 .badArgument [] s) = true)
      ∧ (let s : State := { member with ctl := { member.ctl with cond := ⟨true, false, false⟩ } }
        s.settled
          ∧ gives (.feed 0 0) s
              (s.taken 0x00080000 .ok []
                ({ s with ctl := { s.ctl with hostLoss := 0, cond := ⟨false, false, false⟩ } }.withEvent .station 3 1 0 0)) = true) := by
  decide +kernel

/-! ### The catalogue and the publish table -/

theorem test_fitsAtItsEdges :
    fits .w8 .signed 127 = true ∧ fits .w8 .signed 128 = false ∧ fits .w8 .signed 0xFFFFFF80 = true
      ∧ fits .w8 .signed 0xFFFFFF7F = false ∧ fits .w16 .unsigned 65535 = true ∧ fits .w16 .unsigned 65536 = false
      ∧ fits .w1 .flags 1 = true ∧ fits .w1 .unsigned 2 = false ∧ fits .w32 .signed 0x80000000 = true := by decide +kernel

/-- Index 0, width 8, UNSIGNED, BOTH, 3..200, name "A", no unit; and FLAGS, whose limits are stored whatever was given. -/
theorem test_descriptorOf :
    descriptorOf [0x00080003, 3, 200, 0x01000000, 0x41000000, 0, 0] = some point8.descriptor
      ∧ descriptorOf [0x00080201, 7, 9, 0, 0, 0, 0] = some ⟨.w8, .flags, .published, 0, 255, [], []⟩
      ∧ descriptorOf [0x00010101, 0, 0, 0, 0, 0, 0] = none ∧ descriptorOf [0x00080003, 201, 200, 0, 0, 0, 0] = none
      ∧ descriptorOf [0x00080003, 3, 200, 0x09000000, 0, 0, 0] = none := by decide +kernel

theorem test_definePoint :
    ( let s := withArgs [0x00080003, 3, 200, 0x01000000, 0x41000000, 0, 0] off
      s.ready ∧ s.ctl.state = .off
        ∧ gives (.definePoint 0 0) s (s.taken 0x00030000 .ok [] { s with pub := { s.pub with catalogue := [⟨point8.descriptor, 3, 0⟩] } })
            = true)
      ∧ (let s := withArgs [0x01080003, 3, 200, 0x01000000, 0x41000000, 0, 0] off
        gives (.definePoint 0 0) s (s.taken 0x00030000 .badArgument [] s) = true)
      ∧ (let wide : Point := ⟨⟨.w32, .unsigned, .published, 0, 9, [], []⟩, 0, 0⟩
        let s := withArgs [0x0C010001, 0, 1, 0, 0, 0, 0] { off with pub := { off.pub with catalogue := List.replicate 12 wide } }
        384 < publishedBits (s.pub.catalogue ++ [⟨⟨.w1, .unsigned, .published, 0, 1, [], []⟩, 0, 0⟩])
          ∧ gives (.definePoint 0 0) s (s.taken 0x00030000 .full [] s) = true)
      ∧ gives (.definePoint 0 0) member (member.taken 0x00030000 .wrongState [] member) = true := by decide +kernel

theorem test_clearCatalogue :
    ( let s : State := { off with pub := { off.pub with catalogue := [point8] } }
      gives (.clearCatalogue 0 0) s (s.taken 0x00040000 .ok [] off) = true)
      ∧ gives (.clearCatalogue 0 0) member (member.taken 0x00040000 .wrongState [] member) = true := by decide +kernel

theorem test_setAndGetPoint :
    ( let s := withArgs [0, 200] member
      s.ready ∧ s.settled ∧ s.pub.catalogue.drop 0 = point8 :: s.pub.catalogue.drop 1
        ∧ gives (.setPoint 0 0) s
            (s.taken 0x00090000 .ok []
              { s with pub := { s.pub with catalogue := [{ point8 with value := 200 }] }, ctl := { s.ctl with hostLoss := 0 } }) = true)
      ∧ (let s := withArgs [0, 201] member
        gives (.setPoint 0 0) s (s.taken 0x00090000 .badArgument [] s) = true)
      ∧ (let s := withArgs [1, 5] member
        gives (.setPoint 0 0) s (s.taken 0x00090000 .badArgument [] s) = true
          ∧ gives (.getPoint 0 0) s (s.taken 0x000A0000 .badArgument [] s) = true)
      ∧ (let s := withArgs [0] member
        gives (.getPoint 0 0) s (s.taken 0x000A0000 .ok [5, 0] s) = true) := by decide +kernel

/-- Three points of 1, 8 and 16 bits: 25 bits in 4 bytes, each read back at its offset. -/
theorem test_dataSection :
    let point (w : Width) (f : Format) (d : Direction) (v : Word) : Point := ⟨⟨w, f, d, 0, 0, [], []⟩, v, 0⟩
    let c := [point .w1 .unsigned .published 1, point .w8 .signed .both 0xFFFFFF81, point .w32 .unsigned .accepted 9,
      point .w16 .unsigned .published 0x1234]
    dataSection c = [0x03, 0x69, 0x24, 0x00] ∧ readPoint (dataSection c) ⟨1, .w8, .signed⟩ = 0xFFFFFF81
      ∧ readPoint (dataSection c) ⟨9, .w16, .unsigned⟩ = 0x1234 ∧ fits .w8 .signed 0xFFFFFF81 = true := by decide +kernel

/-! ### The slot map, the image, watches and peers, as the host reads and writes them -/

theorem test_readSlotAndReadCounters :
    ( let s := withArgs [8] member
      s.ready ∧ gives (.readSlot 0 0) s (s.taken 0x00130000 .badArgument [] s) = true)
      ∧ (let s := withArgs [7] member
        gives (.readSlot 0 0) s (s.taken 0x00130000 .ok [0, 0, 0, 0, 0, 0, 3, 7] s) = true)
      ∧ (let s := withArgs [1] member
        gives (.readSlot 0 0) s (s.taken 0x00130000 .ok [1, 2, 0, 1, 0, 1, 3, 7] s) = true)
      ∧ (let s := withArgs [2] member
        gives (.readSlot 0 0) s (s.taken 0x00130000 .ok [2, 1, 1, 0, 0, 0, 3, 7] s) = true)
      ∧ (let s := withArgs [0] member
        gives (.readSlot 0 0) s (s.taken 0x00130000 .ok [3, 1, 1, 0, 0, 0, 3, 7] s) = true)
      ∧ (let s : State := { member with line := { member.line with good := 5, holds := 2 }, req := { member.req with lateAnswers := 3 } }
        gives (.readCounters 0 0) s (s.taken 0x001C0000 .ok [0x00050000, 0, 2, 0, 0, 0x00030000] s) = true) := by decide +kernel

theorem test_subscribe :
    ( let s := withArgs [128, 2, 0, 3, 0, 0] member
      s.ready ∧ s.settled ∧ gives (.subscribe 0 0) s (s.taken 0x000B0000 .badArgument [] s) = true)
      ∧ (let s := withArgs [0, 2, 0, 3, 0, 0] member
        gives (.subscribe 0 0) s (s.taken 0x000B0000 .busy [] s) = true)
      ∧ (let s := withArgs [127, 4, 31, 15, 1, 9] member
        gives (.subscribe 0 0) s
          (s.taken 0x000B0000 .ok [] { s with image := s.image.set 127 ⟨.resolving, 4, 31, 15, 0, 9, 0, some 9, none, none⟩ }) = true)
      ∧ (let s := withArgs [3, 2, 0, 1, 0, 0] member
        (s.peer 2).presence = .present ∧ (s.peer 2).shapeAt 0 = some shape8
          ∧ gives (.subscribe 0 0) s
              (s.taken 0x000B0000 .ok []
                { s with image := s.image.set 3 ⟨.waiting, 2, 0, 1, 0, 0, 0, none, some ⟨0, .w8, .unsigned⟩, none⟩ }) = true)
      ∧ (let s := withArgs [3, 2, 1, 1, 0, 0] member
        s.collectorFree
          ∧ gives (.subscribe 0 0) s
              (s.taken 0x000B0000 .ok []
                ({ s with image := s.image.set 3 ⟨.failed .noPoint, 2, 1, 1, 0, 0, 0, none, none, none⟩ }.withEvent .entry 6 3 1 0))
              = true)
      ∧ (let p : PeerRecord := { peer2 with shapes := some { shape8 with direction := .accepted } :: List.replicate 31 none, layout := some ⟨0, [none]⟩ }
        let s := withArgs [127, 2, 0, 15, 1, 9] { member with peers := member.peers.set 1 p }
        (s.peer 2).shapeAt 0 = some { shape8 with direction := .accepted } ∧ s.collectorFree
          ∧ gives (.subscribe 0 0) s
              (s.taken 0x000B0000 .ok []
                ({ s with image := s.image.set 127 ⟨.failed .notPublished, 2, 0, 15, 0, 9, 0, some 9, none, none⟩ }.withEvent
                  .entry 7 127 1 9)) = true)
      ∧ (let p : PeerRecord := { PeerRecord.reset with catalogue := .failed }
        let s := withArgs [3, 3, 1, 1, 0, 0] { member with peers := member.peers.set 2 p }
        gives (.subscribe 0 0) s
          (s.taken 0x000B0000 .ok []
            ({ s with image := s.image.set 3 ⟨.failed .noCatalogue, 3, 1, 1, 0, 0, 0, none, none, none⟩ }.withEvent .entry 5 3 1 0))
          = true) := by decide +kernel

/-- UNSUBSCRIBE, also of the only pending entry of a collection, which then ends. -/
theorem test_unsubscribe :
    ( let s := withArgs [128] member
      gives (.unsubscribe 0 0) s (s.taken 0x000C0000 .badArgument [] s) = true)
      ∧ (let s := withArgs [127] member
        gives (.unsubscribe 0 0) s (s.taken 0x000C0000 .notFound [] s) = true)
      ∧ (let s := withArgs [0] member
        s.collectorFree ∧ gives (.unsubscribe 0 0) s (s.taken 0x000C0000 .ok [] { s with image := s.image.set 0 ImageEntry.free }) = true)
      ∧ (let u : SnapshotUnit := { SnapshotUnit.reset with state := .collecting, set := [0], places := [⟨0, .pending, 0, 0⟩] }
        let s := withArgs [0] { member with unitA := u }
        leads (.unsubscribe 0 0) s
          (fun t => t.unitA.state == .armed && t.unitA.summary == .incomplete && t.unitA.places == [⟨0, .missing, 0, 7⟩]
            && t.host.events == [⟨.snapshot, 2, 1, 0, 1, 7⟩]) = true) := by decide +kernel

theorem test_readImage :
    ( let s := withArgs [128] member
      s.ready ∧ gives (.readImage 0 0) s (s.taken 0x000D0000 .badArgument [] s) = true)
      ∧ (let s := withArgs [127] member
        gives (.readImage 0 0) s (s.taken 0x000D0000 .ok [0, 0, 0, 0, 0, 0, 0, 0] s) = true)
      ∧ (let s := withArgs [0] member
        gives (.readImage 0 0) s (s.taken 0x000D0000 .ok [0x00030000, 0x00020000, 0x00030001, 15, 4, 3, 0, 0x00000800] s) = true)
      ∧ (let s := withArgs [2] member
        gives (.readImage 0 0) s (s.taken 0x000D0000 .ok [0x00010000, 0x00030004, 0x00020000, 0, 0, 0, 0, 0xFFFF0000] s) = true) := by
  decide +kernel

/-- At the limits a value is INSIDE, one beyond is BELOW or ABOVE; SIGNED and UNSIGNED read the same word differently. -/
theorem test_zones :
    watch0.place .unsigned 10 = .inside ∧ watch0.place .unsigned 9 = .below ∧ watch0.place .unsigned 20 = .inside
      ∧ watch0.place .unsigned 21 = .above ∧ watch0.place .signed 0xFFFFFFFF = .below
      ∧ watch0.place .flags 0xFFFFFFFF = .above := by decide

theorem test_evaluation :
    let e (v : Word) (z : Zone) : ImageEntry := { fresh0 with value := v, watch := some { watch0 with zone := z } }
    let at_ (v : Word) (z : Zone) : State := { member with image := member.image.set 0 (e v z) }
    ( let s := at_ 21 .inside
      s.image.drop 0 = e 21 .inside :: s.image.drop 1 ∧ s.unitA.trigger ≠ .watch 0 ∧ s.unitB.trigger ≠ .watch 0 ∧ s.collectorFree
        ∧ evaluateWatch 0 .unsigned s = { at_ 21 .above with raised := [⟨.watch, 4, 0, 3, 21, 7⟩] })
      ∧ evaluateWatch 0 .unsigned (at_ 15 .unknown) = at_ 15 .inside
      ∧ evaluateWatch 0 .unsigned (at_ 15 .inside) = at_ 15 .inside
      ∧ (evaluateWatch 0 .unsigned (at_ 15 .below)).raised = [⟨.watch, 3, 0, 2, 15, 7⟩] := by decide +kernel

/-- The passage of an entry with a watch: without a fallback its zone is UNKNOWN outside WAITING, FRESH and STALE, and stays within; with one
it is placed on the fallback. -/
theorem test_passages :
    let low : ImageEntry := { fresh0 with fallback := some 6 }
    let s : State := { member with image := [fresh0, low] }
    let lost := passEntry 0 .lost (some 4) s
    let stale := passEntry 0 .stale (some 2) s
    let placed := passEntry 1 .resolving none s
    lost.image = [{ fresh0 with state := .lost, layout := none, watch := some { watch0 with zone := .unknown } }, low]
      ∧ ofKind .entry lost.raised = [⟨.entry, 4, 0, 3, 15, 7⟩]
      ∧ stale.image = [{ fresh0 with state := .stale }, low] ∧ ofKind .entry stale.raised = [⟨.entry, 2, 0, 3, 15, 7⟩]
      ∧ placed.image
        = [fresh0, { low with state := .resolving, layout := none, value := 6, watch := some { watch0 with zone := .below } }]
      ∧ ofKind .entry placed.raised = [] := by decide +kernel

theorem test_setAndClearWatch :
    ( let s := withArgs [0, 1, 2, 8] member
      s.ready ∧ s.settled ∧ gives (.setWatch 0 0) s (s.taken 0x000E0000 .badArgument [] s) = true)
      ∧ (let s := withArgs [127, 1, 2, 7] member
        gives (.setWatch 0 0) s (s.taken 0x000E0000 .notFound [] s) = true)
      ∧ (let s := withArgs [0, 3, 2, 7] member
        gives (.setWatch 0 0) s (s.taken 0x000E0000 .badArgument [] s) = true)
      ∧ (let s := withArgs [2, 3, 0xFFFFFFFF, 5] member
        gives (.setWatch 0 0) s
          (s.taken 0x000E0000 .ok []
            { s with image := s.image.set 2 { resolving2 with watch := some ⟨3, 0xFFFFFFFF, true, false, true, .unknown⟩ } }) = true)
      ∧ (let s := withArgs [0, 3, 14, 4] member
        (s.entry 0).state = .fresh
          ∧ leads (.setWatch 0 0) s
              (fun t => t.image == s.image.set 0 { fresh0 with watch := some ⟨3, 14, false, false, true, .above⟩ }
                && t.host.events == [⟨.watch, 4, 0, 1, 15, 7⟩] && t.peers == s.peers && t.req == s.req) = true)
      ∧ (let s := withArgs [0] member
        gives (.clearWatch 0 0) s (s.taken 0x000F0000 .ok [] { s with image := s.image.set 0 { fresh0 with watch := none } }) = true)
      ∧ (let s := withArgs [1] member
        gives (.clearWatch 0 0) s (s.taken 0x000F0000 .notFound [] s) = true)
      ∧ (let s := withArgs [128] member
        gives (.clearWatch 0 0) s (s.taken 0x000F0000 .badArgument [] s) = true) := by decide +kernel

theorem test_readPeerAndReadShape :
    ( let s := withArgs [0] member
      s.ready ∧ gives (.readPeer 0 0) s (s.taken 0x00100000 .badArgument [] s) = true)
      ∧ (let p : PeerRecord := { peer2 with wentAbsent := true, lastSequence := some 9, framesMissed := 4 }
        let s := withArgs [2] { member with peers := member.peers.set 1 p }
        gives (.readPeer 0 0) s
          (s.taken 0x00100000 .ok [0x00010001, 0, 9, 0x00040000, 0, 0x00020001, 8, 1]
            { s with peers := s.peers.set 1 { p with wentAbsent := false } }) = true)
      ∧ (let s := withArgs [1] member
        s.peer 1 = PeerRecord.reset ∧ gives (.readPeer 0 0) s (s.taken 0x00100000 .ok [0, 0, 256, 0, 0, 255, 0, 0] s) = true)
      ∧ (let s := withArgs [2, 0] member
        gives (.readShape 0 0) s (s.taken 0x00110000 .ok [8, 0, 1, 0] s) = true)
      ∧ (let s := withArgs [2, 31] member
        gives (.readShape 0 0) s (s.taken 0x00110000 .notFound [] s) = true)
      ∧ (let s := withArgs [32, 32] member
        gives (.readShape 0 0) s (s.taken 0x00110000 .badArgument [] s) = true)
      ∧ (let s := withArgs [2, 0] { member with peers := member.peers.set 1 { peer2 with catalogue := .fetching } }
        gives (.readShape 0 0) s (s.taken 0x00110000 .ok [8, 0, 1, 65535] s) = true) := by decide +kernel

theorem test_refreshPeer :
    ( let s := withArgs [33] member
      s.ready ∧ s.settled ∧ gives (.refreshPeer 0 0) s (s.taken 0x00120000 .badArgument [] s) = true)
      ∧ (let s := withArgs [2] member
        gives (.refreshPeer 0 0) s (s.taken 0x00120000 .ok [] s) = true)
      ∧ (let p : PeerRecord := { PeerRecord.reset with catalogue := .failed }
        let e : ImageEntry := { resolving2 with state := .failed .noCatalogue }
        let s := withArgs [3] { member with peers := member.peers.set 2 p, image := member.image.set 2 e }
        s.collectorFree
          ∧ leads (.refreshPeer 0 0) s
              (fun t => t.peers == s.peers.set 2 { p with catalogue := .fetching } && t.image == s.image.set 2 resolving2
                && t.host.events == []) = true) := by decide +kernel

/-! ### Directed requests -/

theorem test_sendRequest :
    ( let s := withArgs [2, 3, 31, 77, 0] (asking [])
      s.ready ∧ s.settled ∧ s.ctl.state = .member ∧ RequestKind.ofNat? (s.argNat 1) = some .writePoint
        ∧ gives (.sendRequest 0 0) s
            (s.taken 0x00140000 .ok [0, 16]
              { s with
                req :=
                  ⟨[⟨9, 0, .application, 2, .writePoint, 31, some 77, none, false, .waiting, 0, 0, none, .nothing⟩], 0, 0⟩
                serial := 10 }) = true)
      ∧ (let s := withArgs [2, 2, 1, 0, 3] (asking [record0])
        s.req.list = [] ++ record0 :: [] ∧ record0.state.live = true
          ∧ gives (.sendRequest 0 0) s
              (s.taken 0x00140000 .ok [0, 4]
                { s with
                  req :=
                    ⟨[record0, ⟨9, 0, .application, 2, .readPoint, 1, none, some 0, true, .waiting, 0, 0, none, .nothing⟩], 0, 0⟩
                  serial := 10 }) = true)
      ∧ (let s := withArgs [0, 2, 1, 0, 0] member
        gives (.sendRequest 0 0) s (s.taken 0x00140000 .badArgument [] s) = true)
      ∧ (let s := withArgs [1, 2, 1, 0, 0] member
        gives (.sendRequest 0 0) s (s.taken 0x00140000 .badArgument [] s) = true)
      ∧ (let s := withArgs [32, 3, 31, 0, 3] (asking (List.replicate 8 record0))
        gives (.sendRequest 0 0) s (s.taken 0x00140000 .full [] s) = true)
      ∧ (let s := withArgs [2, 2, 1, 0, 0] (inState .leaving member)
        gives (.sendRequest 0 0) s (s.taken 0x00140000 .wrongState [] s) = true) := by decide +kernel

/-- Tags 15 and 0 are held, so the tag after 14 is 1. -/
theorem test_nextTag :
    let u : RequestUnit := ⟨[{ record0 with tag := 15 }, { record0 with tag := 0, id := 1 }], 14, 0⟩
    u.list.length ≤ 8 ∧ u.nextTag = 1 ∧ RequestUnit.reset.nextTag = 0 := by decide

/-- A record entered behind a FAILED predecessor, or with the check flag behind an answer other than OK, ends CHAIN_BROKEN at the command;
without the check flag it is not held by such an answer, nor with it by an OK one. -/
theorem test_sendRequestBehindAnEnd :
    let ended (st : RequestState) (o : RequestOutcome) : RequestRecord := { record0 with state := st, outcome := some o }
    let entered (check : Bool) (st : RequestState) (o : Option RequestOutcome) : RequestRecord :=
      ⟨9, 0, .application, 32, .readPoint, 31, none, some 0, check, st, 0, 0, o, .nothing⟩
    let s (options : Word) (p : RequestRecord) : State := withArgs [32, 2, 31, 0, options] (asking [p])
    let sent (s : State) (p r : RequestRecord) : State := { s with req := ⟨[p, r], 0, 0⟩, serial := 10 }
    let gone (options : Word) (check : Bool) (p : RequestRecord) : Bool :=
      gives (.sendRequest 0 0) (s options p)
        ((s options p).taken 0x00140000 .ok [0, 4]
          ((sent (s options p) p (entered check .failed (some .chainBroken))).withEvent .request 7 0 32 0))
    let waits (options : Word) (check : Bool) (p : RequestRecord) : Bool :=
      gives (.sendRequest 0 0) (s options p)
        ((s options p).taken 0x00140000 .ok [0, 4] (sent (s options p) p (entered check .waiting none)))
    (s 1 record0).ready ∧ (s 1 record0).settled ∧ record0.id ≠ (s 1 record0).serial
      ∧ gone 1 false (ended .failed .noAnswer) = true ∧ gone 3 true (ended .answered (.answer .noPoint)) = true
      ∧ waits 1 false (ended .answered (.answer .noPoint)) = true ∧ waits 3 true (ended .answered (.answer .ok)) = true
      ∧ waits 3 true (ended .answered .broadcastSent) = true := by decide +kernel

/-- With one place free and a peer waiting for it, the queue says who takes it: the command alone, or the peer's DISCOVERY_ENTRY before it. -/
theorem test_theLastPlace :
    let p : PeerRecord := { PeerRecord.reset with presence := .present }
    let rs : List RequestRecord := (List.range 7).map fun k => { record0 with id := k, tag := k }
    let s : State := withArgs [2, 2, 1, 0, 0] { asking rs with peers := member.peers.set 2 p }
    s.ready ∧ s.discoveryDue = true
      ∧ leads (.sendRequest 0 0) s (fun t =>
          t.req.list.length == 8 && t.req.discoveryCount == 0 && t.host.running.map (·.result) == some .ok) = true
      ∧ leads .discoveryEntry s (fun t =>
          t.req.discoveryCount == 1
            && leads (.sendRequest 0 0) t (fun u => u.req == t.req && u.host.running.map (·.result) == some .full)) = true
      ∧ stepGives s s = false := by decide +kernel

def answered0 : RequestRecord := { record0 with state := .answered, outcome := some (.answer .ok), content := .value 0x55, attempts := 2 }

theorem test_takeResult :
    ( let s := withArgs [17] (asking [answered0])
      s.ready ∧ gives (.takeResult 0 0) s (s.taken 0x00150000 .badArgument [] s) = true)
      ∧ (let s := withArgs [4] (asking [record0])
        gives (.takeResult 0 0) s (s.taken 0x00150000 .notFound [] s) = true)
      ∧ (let q : RequestRecord := { record0 with id := 1, tag := 5, predecessor := some 0 }
        let s := withArgs [16] (asking [answered0, q])
        s.req.list = [] ++ answered0 :: [q]
          ∧ gives (.takeResult 0 0) s
              (s.taken 0x00150000 .ok [0x04000200, 0x02020000, 0x55, 0, 0, 0, 0, 0]
                { s with req := { s.req with list := [{ q with predecessor := none }] } }) = true)
      ∧ (let d : Descriptor := ⟨.w16, .signed, .both, 1, 2, [0x41, 0x42, 0x43, 0x44, 0x45], [0x56]⟩
        let s := withArgs [4] (asking [{ answered0 with kind := .readEntry, content := .descriptor d }])
        gives (.takeResult 0 0) s
          (s.taken 0x00150000 .ok [0x04000100, 0x02020501, 1, 2, 0x41424344, 0x45000000, 0x56000000, 0x10010300]
            { s with req := { s.req with list := [] } }) = true) := by decide +kernel

theorem test_cancelRequest :
    ( let s := withArgs [16] (asking [record0])
      gives (.cancelRequest 0 0) s (s.taken 0x00160000 .badArgument [] s) = true)
      ∧ (let s := withArgs [5] (asking [record0])
        gives (.cancelRequest 0 0) s (s.taken 0x00160000 .notFound [] s) = true)
      ∧ (let s := withArgs [4] (asking [record0])
        (s.req.list.map (·.id)).Nodup ∧ record0.predecessor ≠ some record0.id
          ∧ gives (.cancelRequest 0 0) s (s.taken 0x00160000 .ok [] (asking [] |> withArgs [4])) = true)
      ∧ (let q : RequestRecord := { record0 with id := 1, tag := 5, predecessor := some 0 }
        let s := withArgs [4] (asking [record0, q])
        leads (.cancelRequest 0 0) s
          (fun t => t.req.list == [{ q with predecessor := none, state := .failed, outcome := some .chainBroken }]
            && t.host.events == [⟨.request, 7, 5, 2, 0, 7⟩]) = true) := by decide +kernel

/-- The cancelling of a record before it ended breaks its successor and that one's, in list order, and no other record. -/
theorem test_cancelBreaksTheChain :
    let q : RequestRecord := { record0 with id := 1, tag := 5, predecessor := some 0 }
    let p : RequestRecord := { record0 with id := 2, tag := 6, predecessor := some 1 }
    let other (id tag : Nat) : RequestRecord := { record0 with id := id, tag := tag }
    let sent : RequestRecord := { record0 with id := 4, tag := 8, predecessor := some 0, state := .sent, attempts := 1 }
    let s : State := withArgs [4] (asking [other 3 7, record0, q, other 5 9, p, sent])
    let broken (r : RequestRecord) : RequestRecord := { r with state := .failed, outcome := some .chainBroken }
    s.ready ∧ s.settled ∧ record0.state.live = true ∧ (s.req.list.map (·.id)).Nodup
      ∧ gives (.cancelRequest 0 0) s
          (s.taken 0x00160000 .ok []
            (({ s with
                req :=
                  { s.req with
                    list :=
                      [other 3 7, broken { q with predecessor := none }, other 5 9, broken p,
                        { sent with predecessor := none }] } }.withEvent .request 7 5 2 0).withEvent .request 7 6 2 0)) = true := by
  decide +kernel

/-- The end of a record judges a chain of two successors and passes over a third record. -/
theorem test_chains :
    let r : RequestRecord := { record0 with state := .sent, attempts := 1 }
    let q (check : Bool) : RequestRecord := { record0 with id := 1, tag := 5, predecessor := some 0, check := check }
    let p : RequestRecord := { record0 with id := 2, tag := 6, predecessor := some 1 }
    let other : RequestRecord := { record0 with id := 3, tag := 7 }
    let s (check : Bool) : State := asking [other, r, q check, p]
    (s true).req.list = [other] ++ r :: [q true, p] ∧ ((s true).req.list.map (·.id)).Nodup
      ∧ endRecord 0 (.answer .ok) (.value 9) (s true)
          = { s true with
              req := ⟨[other, { r with state := .answered, outcome := some (.answer .ok), content := .value 9 }, q true, p], 15, 0⟩
              raised := [⟨.request, 0, 4, 2, 9, 7⟩] }
      ∧ (endRecord 0 (.answer .noPoint) .nothing (s false)).raised = [⟨.request, 2, 4, 2, 0, 7⟩]
      ∧ (endRecord 0 (.answer .noPoint) .nothing (s true)).raised
          = [⟨.request, 2, 4, 2, 0, 7⟩, ⟨.request, 7, 5, 2, 0, 7⟩, ⟨.request, 7, 6, 2, 0, 7⟩]
      ∧ (endRecord 0 .noAnswer .nothing (s false)).req.list.map (·.outcome)
          = [none, some .noAnswer, some .chainBroken, some .chainBroken] := by
  decide +kernel

/-! ### Requests of peers -/

theorem test_requestsAreServed :
    let r (k : RequestKind) (i : Nat) : RequestSection := ⟨3, 1, k, i, none⟩
    let answer (o : AnswerOutcome) (k : RequestKind) (i : Nat) (c : Content) : Answer := ⟨0, 9, 3, k, i, o, c⟩
    let queued (as : List Answer) (n : Nat) : State := { member with pub := { member.pub with answers := as }, serial := n }
    (r .readPoint 0).target = member.ctl.config.station
      ∧ requestArrival 9 (r .readPoint 0) member = queued [answer .ok .readPoint 0 (.value 5)] 1
      ∧ requestArrival 9 (r .readPoint 0) (queued [answer .ok .readPoint 0 (.value 5)] 1)
          = queued [answer .ok .readPoint 0 (.value 5)] 1
      ∧ requestArrival 9 (r .readEntry 0) member = queued [answer .ok .readEntry 0 (.descriptor point8.descriptor)] 1
      ∧ requestArrival 9 (r .readEntry 1) member = queued [answer .catalogueEnd .readEntry 1 (.count 1)] 1
      ∧ requestArrival 9 (r .readPoint 1) member = queued [answer .noPoint .readPoint 1 .nothing] 1
      ∧ (requestArrival 9 (r .readPoint 1) (queued (List.replicate 4 (answer .ok .readPoint 0 .nothing)) 1)).pub.dropped = 1
      ∧ (requestArrival 9 (r .readPoint 1) (inState .observer member)).pub.notServed = 1 := by decide +kernel

/-- A request for another station. -/
theorem test_requestsForOthers :
    requestArrival 9 ⟨3, 5, .writePoint, 0, some 77⟩ member = member := by decide +kernel

/-- A write to the point of limits 3..200: at the limit, beyond it, and to a PUBLISHED point. -/
theorem test_peerWrites :
    let r (v : Word) : RequestSection := ⟨3, 1, .writePoint, 0, some v⟩
    let published : State :=
      { member with pub := { member.pub with catalogue := [{ point8 with descriptor := { point8.descriptor with direction := .published } }] } }
    member.pub.catalogue.drop 0 = point8 :: member.pub.catalogue.drop 1
      ∧ requestArrival 9 (r 200) member
          = { member with
              pub :=
                { member.pub with
                  answers := [⟨0, 9, 3, .writePoint, 0, .ok, .value 200⟩]
                  catalogue := [{ point8 with value := 200, writer := 9 }] }
              raised := [⟨.peerWrite, 1, 0, 9, 200, 7⟩]
              serial := 1 }
      ∧ requestArrival 9 (r 201) member
          = { member with pub := { member.pub with answers := [⟨0, 9, 3, .writePoint, 0, .outOfRange, .value 5⟩] }, serial := 1 }
      ∧ requestArrival 9 (r 5) published
          = { published with
              pub := { published.pub with answers := [⟨0, 9, 3, .writePoint, 0, .notAccepted, .nothing⟩] }, serial := 1 } := by
  decide +kernel

/-- A WRITE_POINT beyond the count is answered NO_POINT. -/
theorem test_writeBeyondTheCount :
    requestArrival 9 ⟨3, 1, .writePoint, 1, some 77⟩ member
      = { member with pub := { member.pub with answers := [⟨0, 9, 3, .writePoint, 1, .noPoint, .nothing⟩] }, serial := 1 } := by
  decide +kernel

/-- A broadcast write is written with PEER_WRITE code 2 and no answer; beyond the count or the limits nothing happens, and a broadcast READ,
or one in OBSERVER, is counted. -/
theorem test_broadcasts :
    requestArrival 9 ⟨3, 0, .writePoint, 0, some 77⟩ member
        = { member with
            pub := { member.pub with catalogue := [{ point8 with value := 77, writer := 9 }] }
            raised := [⟨.peerWrite, 2, 0, 9, 77, 7⟩] }
      ∧ requestArrival 9 ⟨3, 0, .writePoint, 0, some 201⟩ member = member
      ∧ requestArrival 9 ⟨3, 0, .writePoint, 1, some 77⟩ member = member
      ∧ requestArrival 9 ⟨3, 0, .readPoint, 0, none⟩ member = { member with pub := { member.pub with broadcastIgnored := 1 } }
      ∧ requestArrival 9 ⟨3, 0, .writePoint, 0, some 77⟩ (inState .observer member)
          = inState .observer { member with pub := { member.pub with notServed := 1 } } := by decide +kernel

/-! ### Snapshot units -/

theorem test_setSnapshot :
    ( let s := withArgs [0x0201030F, 0, 2, 0x05060000, 0, 0, 0] member
      s.ready ∧ (byteOf (s.argWord 0) 3).toNat = UnitId.b.code ∧ triggerOf 1 0 = some .command
        ∧ gives (.setSnapshot 0 0) s
            (s.taken 0x00170000 .ok []
              { s with unitB := { s.unitB with state := .armed, trigger := .command, set := [5, 6], hold := true, oneShot := true, deadline := 15 } })
            = true)
      ∧ (let s := withArgs [0x0301030F, 0, 2, 0x05060000, 0, 0, 0] member
        gives (.setSnapshot 0 0) s (s.taken 0x00170000 .badArgument [] s) = true)
      ∧ (let s := withArgs [0x0104010F, 128, 2, 0x05060000, 0, 0, 0] member
        triggerOf 4 128 = none ∧ gives (.setSnapshot 0 0) s (s.taken 0x00170000 .badArgument [] s) = true)
      ∧ (let s := withArgs [0x0101010F, 0, 2, 0x05050000, 0, 0, 0] member
        gives (.setSnapshot 0 0) s (s.taken 0x00170000 .badArgument [] s) = true)
      ∧ (let s := withArgs [0x01000000] (units armedA armedB)
        gives (.setSnapshot 0 0) s (s.taken 0x00170000 .ok [] { s with unitA := { SnapshotUnit.reset with state := .off } }) = true)
      ∧ (let s := withArgs [0x0101010F, 0, 2, 0x05060000, 0, 0, 0] (units collectingA armedB)
        gives (.setSnapshot 0 0) s (s.taken 0x00170000 .busy [] s) = true) := by decide +kernel

/-- The trigger codes with their parameters, at the ends of their ranges and beyond them. -/
theorem test_triggerCodes :
    let s (code : Word) (parameter : Word) : State := withArgs [0x0100000F + code * 65536, parameter, 1, 0x05000000, 0, 0, 0] member
    let armed (code parameter : Word) (trigger : Trigger) : Bool :=
      leads (.setSnapshot 0 0) (s code parameter) fun t => t.unitA.trigger == trigger && t.unitA.state == .armed
    let turnedAway (code parameter : Word) : Bool :=
      gives (.setSnapshot 0 0) (s code parameter) ((s code parameter).taken 0x00170000 .badArgument [] (s code parameter))
    armed 1 9 .command = true ∧ armed 2 1 (.round 1) = true ∧ armed 2 255 (.round 255) = true ∧ armed 3 1 (.pin true) = true
      ∧ armed 3 2 (.pin false) = true ∧ armed 4 0 (.watch 0) = true ∧ armed 4 127 (.watch 127) = true
      ∧ turnedAway 2 0 = true ∧ turnedAway 2 256 = true ∧ turnedAway 3 0 = true ∧ turnedAway 3 3 = true
      ∧ turnedAway 4 128 = true ∧ turnedAway 5 1 = true := by decide +kernel

theorem test_fireSnapshot :
    ( let s := withArgs [4] (units armedA armedB)
      s.ready ∧ s.settled ∧ s.inArrival = false ∧ gives (.fireSnapshot 0 0) s (s.taken 0x00180000 .badArgument [] s) = true)
      ∧ (let s := withArgs [3] (units armedA { armedB with trigger := .round 2 })
        gives (.fireSnapshot 0 0) s (s.taken 0x00180000 .wrongState [] s) = true)
      ∧ (let s := withArgs [1] (units armedA armedB)
        (∃ i ∈ s.unitA.set, (s.entry i).state.served = true)
          ∧ gives (.fireSnapshot 0 0) s (s.taken 0x00180000 .ok [3, 1] { s with unitA := begunA }) = true)
      ∧ (let s := withArgs [3] (units armedA armedB)
        gives (.fireSnapshot 0 0) s
          (s.taken 0x00180000 .ok [3, 2] { s with unitA := begunA, unitB := { armedB with state := .pending } }) = true)
      ∧ (let s := withArgs [3] (units armedA { armedB with hold := false })
        gives (.fireSnapshot 0 0) s
          (s.taken 0x00180000 .ok [3, 1] { s with unitA := begunA, unitB := { armedB with hold := false, ignored := 1 } }) = true)
      ∧ (let s := withArgs [2] (units armedA armedB)
        gives (.fireSnapshot 0 0) s
          (s.taken 0x00180000 .ok [1, 3]
            { s with unitB := { begunA with set := [1], hold := true, places := [⟨1, .pending, 0, 0⟩] } }) = true)
      ∧ (let s := withArgs [1] (units { armedA with state := .spent } armedB)
        gives (.fireSnapshot 0 0) s (s.taken 0x00180000 .ok [4, 1] s) = true)
      ∧ (let s := withArgs [1] (units collectingA armedB)
        gives (.fireSnapshot 0 0) s (s.taken 0x00180000 .ok [3, 1] { s with unitA := { collectingA with ignored := 1 } }) = true)
      ∧ (let s := withArgs [2] (units collectingA { armedB with state := .pending })
        gives (.fireSnapshot 0 0) s
          (s.taken 0x00180000 .ok [3, 2] { s with unitB := { armedB with state := .pending, ignored := 1 } }) = true)
      ∧ (let s := withArgs [2] (units collectingA armedB)
        gives (.fireSnapshot 0 0) s (s.taken 0x00180000 .ok [3, 2] { s with unitB := { armedB with state := .pending } }) = true)
      ∧ (let s := withArgs [2] (units collectingA { armedB with hold := false })
        gives (.fireSnapshot 0 0) s
          (s.taken 0x00180000 .ok [3, 1] { s with unitB := { armedB with hold := false, ignored := 1 } }) = true) := by
  decide +kernel

/-- With no entry that takes values the collection ends at its start, PARTIAL. -/
theorem test_fireSnapshotEndsAtItsStart :
    leads (.fireSnapshot 0 0) (withArgs [1] (units { armedA with set := [2], oneShot := true } armedB))
      (fun t => t.unitA.state == .spent && t.unitA.summary == .incomplete && t.host.events == [⟨.snapshot, 2, 1, 0, 1, 7⟩])
      = true := by decide +kernel

/-- A unit with no place pending at its start: PARTIAL with both places MISSING, begun and ended in this moment. -/
def endedA : SnapshotUnit :=
  { begunA with state := .armed, summary := .incomplete, places := [⟨2, .missing, 0, 7⟩, ⟨3, .missing, 0, 7⟩], set := [2, 3] }
def voidA : SnapshotUnit := { armedA with set := [2, 3] }

/-- FIRE_SNAPSHOT of both, A's collection ending at its start: B drops its trigger with IGNORE and begins with HOLD; one unit alone; a unit
that is not ARMED beside one that is. -/
theorem test_fireSnapshotTogether :
    let event (s : State) : State := s.withEvent .snapshot 2 1 0 2
    let b : SnapshotUnit := { begunA with set := [1], hold := true, places := [⟨1, .pending, 0, 0⟩] }
    ( let s := withArgs [3] (units voidA { armedB with hold := false })
      s.ready ∧ s.settled ∧ (∀ i ∈ s.unitA.set, (s.entry i).state.served = false)
        ∧ gives (.fireSnapshot 0 0) s
            (s.taken 0x00180000 .ok [1, 1] (event { s with unitA := endedA, unitB := { armedB with hold := false, ignored := 1 } }))
            = true)
      ∧ (let s := withArgs [3] (units voidA armedB)
        gives (.fireSnapshot 0 0) s (s.taken 0x00180000 .ok [1, 3] (event { s with unitA := endedA, unitB := b })) = true)
      ∧ (let s := withArgs [1] (units voidA armedB)
        gives (.fireSnapshot 0 0) s (s.taken 0x00180000 .ok [1, 1] (event { s with unitA := endedA })) = true)
      ∧ (let s := withArgs [3] (units { armedA with state := .spent } armedB)
        gives (.fireSnapshot 0 0) s (s.taken 0x00180000 .ok [4, 3] { s with unitB := b }) = true)
      ∧ (let s := withArgs [3] (units armedA { armedB with state := .spent })
        gives (.fireSnapshot 0 0) s (s.taken 0x00180000 .ok [3, 4] { s with unitA := begunA }) = true) := by decide +kernel

/-- An edge of TRIG: no edge, no unit, A, B, both, both with A's collection ending at its start, B's ending at its start, and a busy B. -/
theorem test_trigEdge :
    let pin (x : SnapshotUnit) : SnapshotUnit := { x with trigger := .pin true }
    let up (s : State) : State := { s with trig := ⟨true, true⟩ }
    let b : SnapshotUnit := pin { begunA with set := [1], hold := true, places := [⟨1, .pending, 0, 0⟩] }
    (member.trig.pin = false ∧ equals (.trigEdge false) member member = true)
      ∧ (member.live ∧ member.settled ∧ member.hasDue = false ∧ gives (.trigEdge true) member (up member) = true)
      ∧ gives (.trigEdge true) (units (pin armedA) armedB) (up (units (pin begunA) armedB)) = true
      ∧ gives (.trigEdge true) (units armedA (pin armedB)) (up (units armedA b)) = true
      ∧ gives (.trigEdge true) (units (pin armedA) (pin armedB)) (up (units (pin begunA) (pin { armedB with state := .pending }))) = true
      ∧ gives (.trigEdge true) (units (pin voidA) (pin armedB)) ((up (units (pin endedA) b)).withEvent .snapshot 2 1 0 2) = true
      ∧ gives (.trigEdge true) (units armedA (pin { voidA with oneShot := true }))
          ((up (units armedA (pin { endedA with state := .spent, oneShot := true }))).withEvent .snapshot 2 2 0 2) = true
      ∧ gives (.trigEdge true) (units collectingA (pin { armedB with hold := false }))
          (up (units collectingA (pin { armedB with hold := false, ignored := 1 }))) = true
      ∧ gives (.trigEdge true) (units (pin { armedA with state := .spent }) armedB) (up (units (pin { armedA with state := .spent }) armedB))
          = true := by decide +kernel

theorem test_rearmAndReadSnapshot :
    ( let s := withArgs [1] (units { armedA with state := .spent, ignored := 3 } armedB)
      s.ready ∧ gives (.rearmSnapshot 0 0) s (s.taken 0x00190000 .ok [] { s with unitA := { armedA with ignored := 3 } }) = true)
      ∧ (let s := withArgs [2] member
        gives (.rearmSnapshot 0 0) s (s.taken 0x00190000 .wrongState [] s) = true)
      ∧ (let s := withArgs [1] (units collectingA armedB)
        gives (.rearmSnapshot 0 0) s (s.taken 0x00190000 .ok [] s) = true
          ∧ gives (.readSnapshot 0 0) s (s.taken 0x001A0000 .busy [] s) = true)
      ∧ (let s := withArgs [0, 16] member
        gives (.rearmSnapshot 0 0) s (s.taken 0x00190000 .badArgument [] s) = true
          ∧ gives (.readSnapshot 0 0) s (s.taken 0x001A0000 .badArgument [] s) = true)
      ∧ (let u : SnapshotUnit :=
          { armedA with summary := .incomplete, start := 6, ignored := 2, places := [⟨0, .captured, 0x99, 8⟩, ⟨2, .missing, 0, 9⟩] }
        let s := withArgs [1, 0] (units u armedB)
        gives (.readSnapshot 0 0) s
            (s.taken 0x001A0000 .ok [0x00010002, 0x00060002, 2, 0, 1, 0x99, 8, 0x00010001] s) = true
          ∧ gives (.readSnapshot 0 0) (withArgs [1, 15] s)
              ((withArgs [1, 15] s).taken 0x001A0000 .ok [0x00010002, 0x00060002, 2, 0, 0, 0, 0, 0x00010001] (withArgs [1, 15] s))
              = true) := by decide +kernel

/-- A value captures its place and the last one ends the collection; a passage makes it MISSING; an arrival that began the collection
captures nothing; a PENDING unit follows. -/
theorem test_collections :
    let full : SnapshotUnit := { collectingA with places := [⟨0, .pending, 0, 0⟩, ⟨1, .pending, 0, 0⟩] }
    let s := units full armedB
    let done : SnapshotUnit := { full with places := [⟨0, .captured, 9, 7⟩, ⟨1, .captured, 8, 7⟩] }
    captureValue 0 9 s = units { full with places := [⟨0, .captured, 9, 7⟩, ⟨1, .pending, 0, 0⟩] } armedB
      ∧ captureValue 1 8 (captureValue 0 9 s)
          = { units { done with state := .armed, summary := .complete } armedB with raised := [⟨.snapshot, 1, 1, 2, 0, 7⟩] }
      ∧ missEntry 0 (units collectingA armedB)
          = { units
                { collectingA with
                  state := .armed, summary := .incomplete, places := [⟨0, .missing, 0, 7⟩, ⟨2, .missing, 0, 7⟩] }
                armedB with
              raised := [⟨.snapshot, 2, 1, 0, 2, 7⟩] }
      ∧ captureValue 0 9 (units { full with passOver := true } armedB) = units { full with passOver := true } armedB
      ∧ (missEntry 0 (units collectingA { armedB with state := .pending })).unitB
          = { begunA with set := [1], hold := true, places := [⟨1, .pending, 0, 0⟩] }
      ∧ captureValue 0 9 member = member ∧ missEntry 0 member = member := by decide +kernel

/-- A WATCH triggers the unit that names its entry. -/
theorem test_watchTriggers :
    let e (v : Word) : ImageEntry := { fresh0 with value := v }
    let a : SnapshotUnit := { armedA with trigger := .watch 0 }
    let s : State := { units a armedB with image := member.image.set 0 (e 21) }
    s.image.drop 0 = e 21 :: s.image.drop 1 ∧ watch0.reports .above = true
      ∧ evaluateWatch 0 .unsigned s
          = { s with
              image := member.image.set 0 { e 21 with watch := some { watch0 with zone := .above } }
              raised := [⟨.watch, 4, 0, 3, 21, 7⟩]
              unitA := { begunA with trigger := .watch 0 }
              began := true } := by decide +kernel

/-- Triggers of one moment from several causes: B's wait for A's, and find A collecting; without A's the first begins a collection. -/
theorem test_joinedTriggers :
    let pending : SnapshotUnit := { armedB with state := .pending }
    let ignore (n : Half) : SnapshotUnit := { armedB with hold := false, ignored := n }
    let b (n : Half) : SnapshotUnit := { begunA with set := [1], hold := true, places := [⟨1, .pending, 0, 0⟩], ignored := n }
    let called (n : Nat) (s : State) : State := { s with called := n }
    let s := units armedA armedB
    giveTriggers false true s = called 1 s ∧ giveTriggers false true (called 1 s) = called 2 s
      ∧ giveTriggers true false (called 1 s) = { units begunA pending with began := true }
      ∧ giveTriggers true false (called 2 s) = { units begunA { pending with ignored := 1 } with began := true }
      ∧ giveTriggers true false (called 2 (units armedA (ignore 0))) = { units begunA (ignore 2) with began := true }
      ∧ giveTriggers true true (units armedA (ignore 0)) = { units begunA (ignore 1) with began := true }
      ∧ takeCall (called 1 s) = units armedA (b 0) ∧ takeCall (called 2 s) = units armedA (b 1) := by decide +kernel

/-- After a collection of A that ended at its start, B's trigger of the same moment finds that A was collecting: with IGNORE it is dropped,
with HOLD it begins; once the moment is over, it begins. Two triggers of B alone, its collections ending at their start. -/
theorem test_joinedAfterAnEnd :
    let a : State := giveTriggers true false (units voidA armedB)
    let ignoring (s : State) : State := { s with unitB := { armedB with hold := false } }
    let b (oneShot : Bool) : SnapshotUnit := { voidA with oneShot := oneShot }
    let ended (oneShot : Bool) (st : UnitState) : SnapshotUnit := { endedA with oneShot := oneShot, state := st }
    let event : EventRecord := ⟨.snapshot, 2, 2, 0, 2, 7⟩
    let twice (oneShot : Bool) : State := takeCall { units armedA (b oneShot) with called := 2 }
    a = { units endedA armedB with began := true, raised := [⟨.snapshot, 2, 1, 0, 2, 7⟩] }
      ∧ giveTriggers false true (ignoring a) = { ignoring a with unitB := { armedB with hold := false, ignored := 1 } }
      ∧ (giveTriggers false true a).unitB = { begunA with set := [1], hold := true, places := [⟨1, .pending, 0, 0⟩] }
      ∧ giveTriggers false true (ignoring (takeCall a)) = { ignoring (takeCall a) with called := 1 }
      ∧ twice true = { units armedA (ended true .spent) with raised := [event] }
      ∧ twice false = { units armedA (ended false .armed) with raised := [event, event] } := by decide +kernel

/-! ### The line -/

/-- Bit times pass one by one; TXD is recessive without a frame, and shows the frame's bit with one. -/
theorem test_bitTimes :
    member.live ∧ member.txeOn = false ∧ member.txd = .recessive
      ∧ leads (.endOfSlot [.dominant, .dominant] .recessive) member
          (fun t => t.slot.timer == 23 && t.line.rxd == .recessive && t.line.run == 1) = true
      ∧ (let s (k : Nat) := onLine fun l => { l with tx := some { slotTx with bytes := [0x80, 0xFF], phase := .sending k } }
        (s 0).txeOn = true ∧ (List.range 11).map (fun k => (s k).txd)
          = [.dominant, .recessive, .dominant, .dominant, .dominant, .dominant, .dominant, .dominant, .dominant, .recessive, .dominant])
      := by decide +kernel

/-- Two bytes with a gap of 11, a byte whose stop bit is lost, and 97 bytes. -/
theorem test_receiver :
    let hear (r : Reception) (levels : List Level) : Reception := levels.foldl (fun r level => r.hear level) r
    let r := Reception.start (some 3)
    hear r ((byteLevels 0x55).tail ++ List.replicate 11 .recessive ++ byteLevels 0xA3 ++ List.replicate 11 .recessive)
        = ⟨some 3, false, [0x55, 0xA3], false, false, .gap 11⟩
      ∧ (hear r ((byteLevels 0x55).tail ++ List.replicate 11 .recessive)).ended = false
      ∧ (hear r ((byteLevels 0x55).tail ++ List.replicate 12 .recessive)).ended = true
      ∧ hear r (List.replicate 8 .dominant) = ⟨some 3, false, [], false, false, .stop 0⟩
      ∧ hear r (List.replicate 9 .dominant ++ List.replicate 11 .recessive) = ⟨some 3, false, [], false, true, .broken 11⟩
      ∧ (hear r (List.replicate 9 .dominant ++ List.replicate 12 .recessive)).ended = true
      ∧ hear r ((byteLevels 0).tail ++ (List.range 96).flatMap fun _ => byteLevels 0)
          = ⟨some 3, false, List.replicate 96 0, true, false, .gap 0⟩ := by decide +kernel

theorem test_startBitAndArbitrationLoss :
    ( let s := onLine fun l => { l with run := 12 }
      s.midSlot ∧ s.txeOn = false ∧ s.line.receiver = .waiting ∧ s.noHold .dominant
        ∧ gives (.startBitTaken [] .dominant) s
            { s.afterBit .dominant with
              line := { s.line with rxd := .dominant, run := 1, receiver := .inside ⟨some 3, false, [], false, false, .data 0 0⟩ } }
            = true)
      ∧ (let s := onLine fun l => { l with run := 11 }
        gives (.startBitTaken [] .dominant) s (s.afterBit .dominant) = true)
      ∧ (let s := onLine fun l => { l with run := 12, hold := true }
        gives (.startBitTaken [] .dominant) s (s.afterBit .dominant) = true)
      ∧ (let s := onLine fun l => { l with rxd := .dominant, run := 12 }
        gives (.startBitTaken [] .dominant) s (s.afterBit .dominant) = true)
      ∧ (let s : State := { off with line := { off.line with run := 12 } }
        leads (.startBitTaken [] .dominant) s
          (fun t => t.line.receiver == .inside ⟨none, false, [], false, false, .data 0 0⟩) = true)
      ∧ (let s (k : Nat) := onLine fun l => { l with tx := some { claimTx with phase := .sending k } }
        (s 0).midSlot ∧ ((s 0).heard .recessive).ended = false
          ∧ gives (.arbitrationLoss [] .recessive) (s 0)
              { (s 0).afterBit .recessive with line := { member.line with run := 1, arbitrationLosses := 1, lost := [claimTx] } } = true
          ∧ leads (.arbitrationLoss [] .dominant) (s 9)
              (fun t => t.line.lost == [{ claimTx with phase := .sending 9 }] && t.line.arbitrationLosses == 1) = true
          ∧ gives (.arbitrationLoss [] .recessive) (s 9)
              { (s 9).afterBit .recessive with line := { member.line with run := 1, tx := some { claimTx with phase := .sending 10 } } }
              = true) := by decide +kernel

/-- A frame that was being sent when its station entered OFF gives no LOST report, in OFF or after JOIN. -/
theorem test_aFrameOverOffGivesNoReport :
    let x : Transmission := { claimTx with offSince := true }
    let s (st : StationState) : State := inState st (onLine fun l => { l with tx := some x })
    (s .listening).midSlot ∧ ((s .listening).heard .recessive).ended = false
      ∧ leads (.arbitrationLoss [] .recessive) (s .off) (fun t =>
          t.line.lost == [] && t.line.tx == none && t.line.arbitrationLosses == 1) = true
      ∧ leads (.arbitrationLoss [] .recessive) (s .listening) (fun t =>
          t.line.lost == [] && t.line.tx == none && t.line.arbitrationLosses == 1) = true := by decide +kernel

theorem test_sendPoint :
    let ready : Transmission := { claimTx with phase := .assembled }
    let inside : Receiver := .inside ⟨some 2, false, [], false, false, .gap 3⟩
    let s (r : Receiver) : State :=
      { onLine fun l => { l with tx := some ready, receiver := r } with slot := { member.slot with timer := 15 } }
    ((s .waiting).quiet ∧ (s .waiting).ctl.state ≠ .off ∧ (s .waiting).txeOn = false ∧ (s .waiting).heard .recessive = .waiting
      ∧ gives (.sendPoint [] .recessive) (s .waiting)
          { (s .waiting).afterBit .recessive with line := { member.line with tx := some claimTx, run := 1 } } = true)
      ∧ (((s inside).heard .recessive).ended = false ∧ (s inside).heard .recessive ≠ .waiting
        ∧ gives (.sendPoint [] .recessive) (s inside)
            { (s inside).afterBit .recessive with
              line :=
                { member.line with
                  run := 1, receiver := .inside ⟨some 2, false, [], false, false, .gap 4⟩, arbitrationLosses := 1, lost := [ready] } }
            = true)
      ∧ leads (.sendPoint [] .recessive) (s (.inside ⟨some 2, true, [7], false, false, .gap 3⟩)) (fun t =>
          t.line.receiver == .inside ⟨some 2, false, [7], false, false, .gap 4⟩ && t.line.lost == [ready]) = true
      ∧ (let s := { s .waiting with line := { (s .waiting).line with hold := true } }
        leads (.sendPoint [] .dominant) s
          (fun t => t.line.tx == none && t.line.sequence == 0 && t.line.arbitrationLosses == 0) = true)
      ∧ gives (.sendPoint [] .recessive) off (off.afterBit .recessive) = true
      ∧ (let s : State := { member with slot := { member.slot with timer := 15 } }
        s.line.tx = none ∧ gives (.sendPoint [] .recessive) s (s.afterBit .recessive) = true) := by decide +kernel

/-- A frame deferred inside an arrival that this station's own frame began gets its LOST report at that arrival's end, which is counted. -/
theorem test_deferredInsideAnOwnArrival :
    let r : Reception := { reception true (List.replicate 10 0) with phase := .broken 10, missing := true }
    let s : State :=
      { onLine fun l => { l with tx := some { claimTx with phase := .assembled }, receiver := .inside r } with
        slot := { member.slot with timer := 15 } }
    leads (.sendPoint [] .recessive) s (fun t => t.line.arbitrationLosses == 1 && t.line.lost.length == 1
      && leads (.arrivalEnd [] .recessive) { t with order := order0 } (fun u =>
          u.line.format == 1 && u.line.lost == [] && (u.slotAt 2).state == .free
            && u.host.events == [⟨.slot, 3, 2, 0, 1, 7⟩])) = true := by decide +kernel

theorem test_sentFrames :
    let last (tx : Transmission) (l : LineUnit) : LineUnit :=
      { l with
        tx := some { tx with phase := .sending (10 * tx.bytes.length - 1) }
        receiver := .inside ⟨some 2, false, [], false, false, .stop 0⟩ }
    let sent : LineUnit :=
      { member.line with run := 1, sequence := 1, receiver := .inside ⟨some 2, true, [0], false, false, .gap 0⟩ }
    let row := Instr.transmissionSent [] .recessive
    ( let s := onLine (last claimTx)
      s.midSlot ∧ (s.slotAt 2).state = .claiming 1 ∧ (s.heard .recessive).ended = false
        ∧ gives row s
            { s.afterBit .recessive with
              line := sent
              slot := { member.slot with timer := 21, map := member.slot.map.set 2 ⟨.claiming 2, false, false, false⟩ } } = true)
      ∧ (let s : State :=
          { onLine (last claimTx) with
            ctl := { member.ctl with state := .claiming }
            slot := { member.slot with map := [clear, clear, ⟨.claiming 2, false, false, false⟩] } }
        s.midSlot ∧ s.ownedCount = 0 ∧ s.host.events.length ≤ 30
          ∧ leads row s (fun t => t.ctl.state == .member && (t.slotAt 2).state == .owned 0
              && t.host.events == [⟨.slot, 1, 2, 0, 1, 7⟩, ⟨.station, 1, 1, 3, 3, 7⟩]) = true)
      ∧ (let answer : Answer := ⟨6, 9, 3, .readPoint, 0, .ok, .value 5⟩
        let s : State :=
          { asking [record0] with
            line := last { slotTx with answer := some 6, request := some 0 } member.line, pub := { member.pub with answers := [answer] } }
        s.midSlot ∧ s.req.list = [] ++ record0 :: [] ∧ (s.slotAt 0).state = .owned 1
          ∧ gives row s
              { asking [{ record0 with state := .sent, attempts := 1, wait := 2 }] with
                line := sent
                slot := { member.slot with timer := 21, map := member.slot.map.set 0 ⟨.owned 0, false, false, false⟩ } } = true)
      ∧ (let s : State :=
          { asking [{ record0 with target := 0, kind := .writePoint }] with line := last { slotTx with request := some 0 } member.line }
        s.midSlot ∧ leads row s (fun t => t.req.list.map (·.outcome) == [some .broadcastSent]
            && t.host.events == [⟨.request, 9, 4, 0, 0, 7⟩]) = true)
      ∧ (let s : State := inState .leaving (onLine (last slotTx))
        s.midSlot ∧ s.ownedCount = 1
          ∧ leads row s (fun t => t.ctl.state == .off && t.host.events.contains ⟨.station, 1, 1, 6, 0, 7⟩) = true
          ∧ (let two : State := { s with slot := { s.slot with map := s.slot.map.set 3 ⟨.owned 0, false, false, false⟩ } }
            two.ownedCount = 2
              ∧ leads row two (fun t => t.ctl.state == .leaving && (t.slotAt 0).state == .free && t.host.events == []) = true)) := by
  decide +kernel

/-- The third clean claim of a MEMBER for a further slot. -/
theorem test_aMemberOwnsAFurtherSlot :
    let tx : Transmission := { claimTx with phase := .sending 99 }
    let s : State :=
      { onLine fun l => { l with tx := some tx, receiver := .inside ⟨some 2, false, [], false, false, .stop 0⟩ } with
        slot := { member.slot with map := member.slot.map.set 2 ⟨.claiming 2, false, false, false⟩ } }
    s.midSlot ∧ s.ctl.state = .member ∧ 1 ≤ s.ownedCount
      ∧ leads (.transmissionSent [] .recessive) s (fun t =>
          t.slotAt 2 == ⟨.owned 0, false, false, false⟩ && t.ctl == s.ctl && t.host.events == [⟨.slot, 1, 2, 0, 2, 7⟩]) = true := by
  decide +kernel

/-- LOST reports: a claim to a winner and to none, before and after its slot's end; a slot frame's first and second loss, the last slot's
among them; in LEAVING; and of a record in another state. -/
theorem test_lostFrames :
    let won (n : Nat) : Frame := ⟨.slotFrame, n, 2, 71, 9, Cond.clear, none, none, []⟩
    let free (this last : Bool) : SlotRecord := ⟨.free, this, last, false⟩
    let lost (k : Nat) (r : SlotRecord) (e : EventRecord) (s : State) : State :=
      { s with slot := { s.slot with map := s.slot.map.set k r }, raised := [e] }
    let heard (k n : Nat) (e : EventRecord) (s : State) : State :=
      { lost k ⟨.heard n 0, false, false, true⟩ e s with peers := s.peers.set (n - 1) { peer2 with heardSlots := 2 } }
    let two : State := { member with slot := { member.slot with map := member.slot.map.set 3 ⟨.owned 0, false, false, false⟩ } }
    let gone : EventRecord := ⟨.station, 1, 1, 4, 2, 7⟩
    1 ≤ (member.peer 2).heardSlots
      ∧ reportToSlots claimTx (.lost .badCrc none) member = lost 2 (free true false) ⟨.slot, 3, 2, 0, 1, 7⟩ member
      ∧ reportToSlots { claimTx with slotEnded := true } (.lost .good (some (won 1))) member
          = lost 2 (free false true) ⟨.slot, 3, 2, 0, 1, 7⟩ member
      ∧ reportToSlots claimTx (.lost .good (some (won 2))) member = heard 2 2 ⟨.slot, 3, 2, 2, 1, 7⟩ member
      ∧ reportToSlots slotTx (.lost .format none) two = lost 0 (free true false) ⟨.slot, 2, 0, 0, 1, 7⟩ two
      ∧ reportToSlots slotTx (.lost .good (some { won 2 with slot := 0 })) two = heard 0 2 ⟨.slot, 2, 0, 2, 1, 7⟩ two
      ∧ reportToSlots slotTx (.lost .format none) member
          = { lost 0 (free true false) ⟨.slot, 2, 0, 0, 0, 7⟩ (inState .claiming member) with
              raised := [⟨.slot, 2, 0, 0, 0, 7⟩, gone] }
      ∧ reportToSlots { slotTx with slot := 3 } (.lost .format none) two
          = { two with slot := { two.slot with map := two.slot.map.set 3 ⟨.owned 1, false, false, false⟩ } }
      ∧ reportToSlots slotTx (.lost .format none) (inState .leaving two)
          = inState .leaving { two with slot := { two.slot with map := two.slot.map.set 0 clear } }
      ∧ (reportToSlots slotTx (.lost .format none) (inState .leaving member)).ctl.state = .off
      ∧ reportToSlots { slotTx with slot := 2 } (.lost .format none) member = member := by decide +kernel

/-- A LOST or ABANDONED frame leaves the answer it carried in the queue and its request WAITING; ABANDONED in LEAVING frees the record. -/
theorem test_reportsKeepTheQueues :
    let tx : Transmission := { slotTx with answer := some 6, request := some 0 }
    let s : State := { asking [record0] with pub := { member.pub with answers := [⟨6, 9, 3, .readPoint, 0, .ok, .value 5⟩] } }
    let lost := reportEnd tx (.lost .format none) s
    (lost.slotAt 0).state = .free ∧ lost.pub = s.pub ∧ lost.req = s.req ∧ reportEnd tx .abandoned s = s
      ∧ (let two : State := inState .leaving { s with slot := { s.slot with map := s.slot.map.set 3 ⟨.owned 0, false, false, false⟩ } }
        reportEnd tx .abandoned two = { two with slot := { two.slot with map := two.slot.map.set 0 clear } }) := by decide +kernel

/-- A run of 20 dominant bit times begins no hold and of 21 does; a claim, an arrival and a frame it ends; 1024 recessive bit times end it. -/
theorem test_holds :
    let run (level : Level) (n : Nat) (l : LineUnit) : LineUnit := { l with rxd := level, run := n }
    let free (s : State) : State := { s with slot := { s.slot with map := List.replicate 8 clear } }
    ( let s := onLine (run .dominant 19)
      s.midSlot ∧ (s.line.measure .dominant).dominantRun = 20
        ∧ gives (.holdBegin [] .dominant) s (s.afterBit .dominant) = true)
      ∧ (let s := free (onLine (run .dominant 20))
        s.midSlot ∧ s.claimingCount = 0 ∧ s.line.receiver = .waiting ∧ s.line.tx = none
          ∧ gives (.holdBegin [] .dominant) s
              ({ s.afterBit .dominant with line := { run .dominant 21 member.line with hold := true, holds := 1 } }.withEvent
                .station 4 1 0 0) = true)
      ∧ (let s := onLine fun l =>
            { run .dominant 20 l with tx := some claimTx, receiver := .inside ⟨some 3, false, [], false, true, .broken 0⟩ }
        s.midSlot
          ∧ leads (.holdBegin [] .dominant) s (fun t =>
              t.line == { run .dominant 21 member.line with hold := true, holds := 1, format := 1 } && t.claimingCount == 0) = true)
      ∧ (let s (level : Level) (n : Nat) := onLine fun l => { run level n l with hold := true }
        (s .recessive 1023).midSlot
          ∧ gives (.holdEnd [] .recessive) (s .recessive 1023)
              ({ (s .recessive 1023).afterBit .recessive with line := run .recessive 1024 member.line }.withEvent .station 5 1 0 0)
              = true
          ∧ gives (.holdEnd [] .recessive) (s .recessive 1022) ((s .recessive 1022).afterBit .recessive) = true
          ∧ gives (.holdEnd [] .dominant) (s .recessive 1023) ((s .recessive 1023).afterBit .dominant) = true
          ∧ gives (.holdEnd [] .recessive) (s .dominant 5) ((s .dominant 5).afterBit .recessive) = true) := by decide +kernel

/-- A hold frees each CLAIMING record with its event, lowest slot first, and leaves the OWNED record whose frame it ends. -/
theorem test_holdFreesTheClaims :
    let claim : SlotRecord := ⟨.claiming 1, true, true, true⟩
    let map := member.slot.map.set 5 claim
    let s : State :=
      { onLine fun l => { l with rxd := .dominant, run := 20, tx := some slotTx } with slot := { member.slot with map := map } }
    let freed : SlotRecord := ⟨.free, true, true, false⟩
    s.midSlot ∧ s.line.lost = [] ∧ s.ctl.state ≠ .leaving
      ∧ leads (.holdBegin [] .dominant) s (fun t =>
          t.slotAt 0 == s.slotAt 0 && t.slotAt 1 == s.slotAt 1 && t.slotAt 2 == clear && t.slotAt 5 == freed
            && ofKind .slot t.host.events == [⟨.slot, 3, 2, 0, 2, 7⟩, ⟨.slot, 3, 5, 0, 2, 7⟩]
            && ofKind .station t.host.events == [⟨.station, 4, 1, 0, 0, 7⟩]) = true := by decide +kernel

theorem test_arrivals :
    let row := Instr.arrivalEnd [] .recessive
    let marked (k : Nat) (f : LineUnit → LineUnit) : State :=
      { member.afterBit .recessive with
        line := f (member.line.measure .recessive)
        slot := { member.slot with timer := 21, map := member.slot.map.modify k fun r => { r with activityThis := true } } }
    let own := reception true (frameBytes (frameOf 1 0))
    ((hearing own).midSlot ∧ own.almostEnded ∧ (hearing own).line.receiver = .inside own
      ∧ own.classified member.ctl.config = (.good, some (frameOf 1 0)) ∧ gives row (hearing own) (marked 0 id) = true)
      ∧ gives row (hearing (reception false (List.replicate 10 0))) (marked 3 fun l => { l with badCrc := 1 }) = true
      ∧ gives row (hearing (reception false (List.replicate 9 0))) (marked 3 fun l => { l with format := 1 }) = true
      ∧ gives row (hearing { reception false (frameBytes (frameOf 4 0)) with missing := true, phase := .broken 11 })
          (marked 3 fun l => { l with format := 1 }) = true
      ∧ gives row (hearing (reception false (frameBytes { frameOf 4 0 with plan := 70 })))
          ({ marked 3 fun l => { l with planMismatch := 1 } with
              peers := member.peers.set 3 { PeerRecord.reset with faults := ⟨true, false, false⟩ } }.withEvent .peer 4 4 1 1) = true
      ∧ gives row (hearing (reception false (frameBytes (frameOf 1 5)))) (marked 5 fun l => { l with good := 1 }) = true
      ∧ (let lost (bytes : List Byte) (x : Transmission) : State :=
          { hearing (reception false bytes) with line := { (hearing (reception false bytes)).line with lost := [x] } }
        let freed (r : SlotRecord) (f : LineUnit → LineUnit) : State :=
          { marked 3 f with slot := { (marked 3 id).slot with map := (marked 3 id).slot.map.set 2 r } }
        let other := frameBytes { frameOf 4 0 with plan := 70 }
        let failed : EventRecord := ⟨.slot, 3, 2, 0, 1, 7⟩
        gives row (lost (List.replicate 10 0) claimTx)
            ((freed ⟨.free, true, false, false⟩ fun l => { l with badCrc := 1 }).withEvent .slot 3 2 0 1) = true
          ∧ gives row (lost (List.replicate 9 0) { claimTx with slotEnded := true })
              ((freed ⟨.free, false, true, false⟩ fun l => { l with format := 1 }).withEvent .slot 3 2 0 1) = true
          ∧ gives row (lost (frameBytes { frameOf 1 0 with plan := 70 }) claimTx)
              ((freed ⟨.free, true, false, false⟩ fun l => { l with planMismatch := 1 }).withEvent .slot 3 2 0 1) = true
          ∧ (lost other claimTx).host.events.length ≤ 30
          ∧ leads row (lost other claimTx) (fun t =>
              t.line == (freed clear fun l => { l with planMismatch := 1 }).line && (t.slotAt 2).state == .free
                && t.peers == member.peers.set 3 { PeerRecord.reset with faults := ⟨true, false, false⟩ }
                && t.host.events == [⟨.peer, 4, 4, 1, 1, 7⟩, failed]) = true) := by
  decide +kernel

/-- A GOOD arrival under this station's own number that ends a LOST claim, and a LOST slot frame: the winner is not known. -/
theorem test_ownNumberWins :
    let row := Instr.arrivalEnd [] .recessive
    let owned (n : Nat) : SlotRecord := ⟨.owned n, false, false, false⟩
    let s (x : Transmission) (map : List SlotRecord) : State :=
      { hearing (reception false (frameBytes (frameOf 1 5))) with
        line := { (hearing (reception false (frameBytes (frameOf 1 5)))).line with lost := [x] }, slot := { member.slot with map := map } }
    let map (n : Nat) (other : SlotRecord) : List SlotRecord := [owned n, clear, clear, clear, other, clear, clear, clear]
    let ends (s : State) (k : Nat) (record : SlotRecord) (st : StationState) (events : List EventRecord) : Bool :=
      leads row s fun t => t.slotAt k == record && (t.slotAt 5).activityThis && t.ctl == { s.ctl with state := st }
        && t.host.events == events && t.line.good == 1 && t.line.lost == [] && t.peers == s.peers
    (s claimTx member.slot.map).midSlot
      ∧ (reception false (frameBytes (frameOf 1 5))).classified member.ctl.config = (.good, some (frameOf 1 5))
      ∧ ends (s claimTx member.slot.map) 2 ⟨.free, true, false, false⟩ .member [⟨.slot, 3, 2, 0, 1, 7⟩] = true
      ∧ ends (s slotTx (map 0 clear)) 0 (owned 1) .member [] = true
      ∧ ends (s slotTx (map 1 (owned 0))) 0 ⟨.free, true, false, false⟩ .member [⟨.slot, 2, 0, 0, 1, 7⟩] = true
      ∧ ends (s slotTx (map 1 clear)) 0 ⟨.free, true, false, false⟩ .claiming
          [⟨.slot, 2, 0, 0, 0, 7⟩, ⟨.station, 1, 1, 4, 2, 7⟩] = true := by decide +kernel

/-- Arrivals that end a LOST slot frame: the first loss, the second with another OWNED record, and the last record's. -/
theorem test_arrivalsEndSlotFrames :
    let row := Instr.arrivalEnd [] .recessive
    let owned (n : Nat) : SlotRecord := ⟨.owned n, false, false, false⟩
    let s (bytes : List Byte) (x : Transmission) (map : List SlotRecord) : State :=
      { hearing (reception false bytes) with
        line := { (hearing (reception false bytes)).line with lost := [x] }, slot := { member.slot with map := map } }
    let map (n : Nat) (other : SlotRecord) : List SlotRecord := [owned n, clear, clear, clear, other, clear, clear, clear]
    let ends (s : State) (record : SlotRecord) (st : StationState) (events : List EventRecord) : Bool :=
      leads row s fun t => t.slotAt 0 == record && t.ctl == { s.ctl with state := st } && t.host.events == events
        && t.pub == s.pub && t.req == s.req && t.line.lost == []
    let gone (left : Word) : EventRecord := ⟨.slot, 2, 0, 0, left, 7⟩
    let mismatch := frameBytes { frameOf 4 0 with plan := 70 }
    (s [] slotTx (map 0 clear)).midSlot
      ∧ ends (s (List.replicate 10 0) slotTx (map 0 clear)) (owned 1) .member [] = true
      ∧ ends (s (List.replicate 9 0) slotTx (map 1 (owned 0))) ⟨.free, true, false, false⟩ .member [gone 1] = true
      ∧ ends (s (List.replicate 9 0) { slotTx with slotEnded := true } (map 1 clear)) ⟨.free, false, true, false⟩ .claiming
          [gone 0, ⟨.station, 1, 1, 4, 2, 7⟩] = true
      ∧ (let m := s mismatch slotTx (map 1 (owned 0))
        leads row m fun t =>
          t.slotAt 0 == ⟨.free, true, false, false⟩ && t.line.planMismatch == 1
            && ofKind .peer t.host.events == [⟨.peer, 4, 4, 1, 1, 7⟩] && ofKind .slot t.host.events == [gone 1]
            && t.host.events.length == 2) = true := by decide +kernel

/-- A GOOD arrival: of a FREE slot, with LEAVING, of an OWNED slot, and with a forward wrap. -/
theorem test_goodArrival :
    let row := Instr.arrivalEnd [] .recessive
    let s (f : Frame) : State := hearing (reception false (frameBytes f))
    let leaving : Frame := { frameOf 2 1 with cond := ⟨false, true, false⟩ }
    let late (f : Frame) : State := { s f with slot := { member.slot with counter := 7 } }
    ((s (frameOf 2 4)).midSlot ∧ (s (frameOf 2 4)).line.lost = [] ∧ (s (frameOf 2 4)).line.tx = none ∧ member.peers.length = 32
        ∧ member.slot.map.length = member.ctl.config.slots
        ∧ (reception false (frameBytes (frameOf 2 4))).classified member.ctl.config = (.good, some (frameOf 2 4)))
      ∧ leads row (s (frameOf 2 4)) (fun t =>
          t.slotAt 4 == ⟨.heard 2 0, true, false, true⟩ && t.slot.counter == 4 && t.slot.timer == 16 + 110 + 12 && t.line.good == 1
            && (t.peer 2).heardSlots == 2 && (t.peer 2).lastSequence == some 9 && t.slot.round == 7) = true
      ∧ leads row (s leaving) (fun t =>
          t.slotAt 1 == ⟨.free, true, false, false⟩ && (t.peer 2).presence == .absent && (t.entry 0).state == .lost) = true
      ∧ leads row (s (frameOf 2 0)) (fun t => (t.slotAt 0).state == .owned 1 && t.slot.outOfStep == 1) = true
      ∧ leads row (late (frameOf 2 0)) (fun t =>
          t.slot.round == 8 && t.slot.counter == 0 && t.slot.timer == 138 && (t.slotAt 0).state == .owned 1
            && t.slot.outOfStep == 1) = true
      ∧ leads row (late (frameOf 2 1)) (fun t => t.slotAt 1 == ⟨.heard 2 0, true, false, true⟩ && t.slot.counter == 1) = true := by
  decide +kernel

/-- A GOOD arrival with an answer, a request and a value: each reaches its block; a frame that stands assembled keeps it from being adopted. -/
theorem test_goodArrivalReachesTheBlocks :
    let row := Instr.arrivalEnd [] .recessive
    let f : Frame :=
      { frameOf 2 4 with
        request := some ⟨5, 1, .readPoint, 0, none⟩, answer := some ⟨4, 1, .readPoint, 0, .ok, .value 0x55⟩ }
    let s : State :=
      { asking [{ record0 with state := .sent, attempts := 1, wait := 1 }] with
        line := { member.line with receiver := .inside (reception false (frameBytes f)) } }
    let held : State := { s with line := { s.line with tx := some { claimTx with phase := .assembled } } }
    s.midSlot ∧ s.txeOn = false ∧ held.midSlot ∧ held.txeOn = false ∧ (reception false (frameBytes f)).classified s.ctl.config = (.good, some f)
      ∧ leads row s (fun t =>
          t.req.list == [{ answered0 with attempts := 1, wait := 1 }]
            && t.pub.answers.map (fun a => (a.requester, a.tag, a.kind, a.index)) == [(2, 5, .readPoint, 0)]
            && (t.entry 0).value == 42 && (t.entry 1).state == .fresh && t.slot.counter == 4
            && ofKind .request t.host.events == [⟨.request, 0, 4, 2, 0x55, 7⟩]
            && (ofKind .entry t.host.events).map (·.code) == [1]) = true
      ∧ leads row held (fun t =>
          t.slot.counter == 3 && t.slot.timer == 21 && t.line.tx == held.line.tx && t.slotAt 4 == ⟨.heard 2 0, true, false, true⟩
            && (t.entry 0).value == 42) = true := by decide +kernel

/-- A GOOD arrival that is the winner's of a LOST claim or slot frame: known, unknown, in LEAVING, and in a forward wrap. -/
theorem test_goodArrivalOfAWinner :
    let row := Instr.arrivalEnd [] .recessive
    let s (f : Frame) (x : Transmission) : State :=
      onLine fun l => { l with receiver := .inside (reception false (frameBytes f)), lost := [x] }
    let late (f : Frame) (x : Transmission) (map : List SlotRecord) : State :=
      { s f x with slot := { member.slot with counter := 7, map := map } }
    let wraps (s : State) (k : Nat) (heard : Bool) (code winner : Nat) (v : Word) : Bool :=
      leads row s fun t => t.slot.round == 8 && t.line.lost == [] && (!heard || (t.slotAt k).state == .heard 2 0)
        && t.host.events.any fun e => e.kind == .slot && e.code == code && e.subject == k && e.detail == winner && e.value == v
    let map := member.slot.map
    (s (frameOf 2 2) claimTx).midSlot ∧ (late (frameOf 2 0) claimTx map).midSlot
      ∧ leads row (s (frameOf 2 2) claimTx) (fun t =>
          t.slotAt 2 == ⟨.heard 2 0, true, false, true⟩ && t.host.events.contains ⟨.slot, 3, 2, 2, 1, 7⟩
            && t.slot.outOfStep == 0 && (t.peer 2).heardSlots == 2 && t.line.lost == [] && t.line.good == 1) = true
      ∧ leads row (s (frameOf 2 4) claimTx) (fun t =>
          t.slotAt 2 == ⟨.free, true, false, false⟩ && t.slotAt 4 == ⟨.heard 2 0, true, false, true⟩
            && ofKind .slot t.host.events == [⟨.slot, 3, 2, 0, 1, 7⟩]) = true
      ∧ leads row (s (frameOf 2 0) slotTx) (fun t =>
          t.slotAt 0 == ⟨.heard 2 0, true, false, true⟩ && t.ctl.state == .claiming && t.slot.outOfStep == 0
            && ofKind .slot t.host.events == [⟨.slot, 2, 0, 2, 0, 7⟩]
            && ofKind .station t.host.events == [⟨.station, 1, 1, 4, 2, 7⟩]) = true
      ∧ leads row (inState .leaving (s (frameOf 2 0) slotTx)) (fun t =>
          t.ctl.state == .off && t.line.lost == [] && ofKind .station t.host.events == [⟨.station, 1, 1, 6, 0, 7⟩]) = true
      ∧ wraps (late (frameOf 2 0) claimTx map) 2 false 3 0 1 = true
      ∧ wraps (late (frameOf 2 2) claimTx map) 2 true 3 2 1 = true
      ∧ wraps (late (frameOf 2 0) slotTx map) 0 true 2 2 0 = true
      ∧ wraps (late (frameOf 2 1) slotTx (map.set 3 ⟨.owned 0, false, false, false⟩)) 0 false 2 0 1 = true
      ∧ leads row (late (frameOf 2 1) slotTx (map.set 0 ⟨.owned 0, false, false, false⟩)) (fun t =>
          t.line.lost == [] && (t.slotAt 0).state == .owned 1) = true := by decide +kernel

/-- A value arrival: FRESH at the value of the data section; STALE with the fallback presented under HOST_LOST. -/
theorem test_valueArrivals :
    let s : State := { member with image := [{ fresh0 with fallback := some 6 }, { waiting1 with state := .stale }, resolving2] }
    let t := imageArrival (frameOf 2 4) .agree s
    let u := imageArrival { frameOf 2 4 with cond := ⟨true, false, false⟩ } .agree s
    s.ctl.state ≠ .off ∧ (t.entry 0).value = 42 ∧ (t.entry 0).age = 0 ∧ (t.entry 0).updates = 5 ∧ (t.entry 1).state = .fresh
      ∧ t.entry 2 = resolving2 ∧ t.raised = [⟨.watch, 4, 0, 3, 42, 7⟩, ⟨.entry, 1, 1, 4, 42, 7⟩]
      ∧ (u.entry 0).state = .stale ∧ (u.entry 0).value = 6 ∧ u.entry 1 = s.entry 1
      ∧ u.raised = [⟨.entry, 3, 0, 3, 6, 7⟩, ⟨.watch, 2, 0, 3, 6, 7⟩]
      ∧ imageArrival (frameOf 2 4) .mismatch s = s ∧ imageArrival { frameOf 2 4 with kind := .claimFrame } .agree s = s := by
  decide +kernel

theorem test_answers :
    let a : AnswerSection := ⟨4, 1, .readPoint, 0, .ok, .value 9⟩
    let r : RequestRecord := { record0 with state := .sent, attempts := 1 }
    answerArrival 2 a (asking [r])
        = { asking [{ r with state := .answered, outcome := some (.answer .ok), content := .value 9 }] with
            raised := [⟨.request, 0, 4, 2, 9, 7⟩] }
      ∧ (answerArrival 2 a (asking [record0])).req.lateAnswers = 1
      ∧ answerArrival 2 { a with requester := 3 } (asking [r]) = asking [r]
      ∧ answerArrival 2 a (asking [{ r with origin := .discovery }]) = asking [] := by decide +kernel

/-- A FETCHING peer learns a descriptor, completes at the count, and conflicts with another shape of the same place. -/
theorem test_learning :
    let d : Descriptor := ⟨.w8, .unsigned, .published, 0, 9, [], []⟩
    let a (i : Nat) (c : Content) : AnswerSection := ⟨4, 9, .readEntry, i, .ok, c⟩
    let p : PeerRecord := { PeerRecord.reset with presence := .present, catalogue := .fetching }
    let s : State := { member with peers := [PeerRecord.reset, PeerRecord.reset, p] }
    let learned := learnAnswer 3 (a 0 (.descriptor d)) none s
    let known := learnAnswer 3 { a 1 (.count 1) with outcome := .catalogueEnd } none learned
    (s.peer 3).shapes.length = 32 ∧ (s.peer 3).shapeAt 1 = none
      ∧ learned = { s with peers := [PeerRecord.reset, PeerRecord.reset, { p with shapes := p.shapes.set 0 (some d.shape) }] }
      ∧ (known.peer 3).catalogue = .known ∧ (known.peer 3).layout = some ⟨8, [some 0]⟩
      ∧ known.raised = [⟨.peer, 5, 3, 1, 8, 7⟩, ⟨.entry, 6, 2, 1, 0, 7⟩]
      ∧ (learnAnswer 3 (a 0 (.descriptor { d with width := .w16 })) none learned).raised = [⟨.peer, 4, 3, 3, 4, 7⟩] := by
  decide +kernel

/-- A discovery record is settled by a shape learned for its place or a count at or below it, but not by its own answer. -/
theorem test_learningSettlesDiscovery :
    let d : Descriptor := ⟨.w8, .unsigned, .published, 0, 9, [], []⟩
    let a (i : Nat) (c : Content) : AnswerSection := ⟨4, 9, .readEntry, i, .ok, c⟩
    let p : PeerRecord := { PeerRecord.reset with presence := .present, catalogue := .fetching }
    let r : RequestRecord := { record0 with origin := .discovery, target := 3, kind := .readEntry, index := 3 }
    let q : RequestRecord := { record0 with id := 1, tag := 5 }
    let s (rs : List RequestRecord) (p : PeerRecord) : State := { asking rs with peers := member.peers.set 2 p }
    let shape (i : Nat) : PeerRecord := { p with shapes := p.shapes.set i (some d.shape) }
    (s [q, r] p).req.list = [q] ++ r :: [] ∧ r.target = 3
      ∧ learnAnswer 3 (a 3 (.descriptor d)) none (s [q, r] p) = s [q] (shape 3)
      ∧ learnAnswer 3 (a 3 (.descriptor d)) (some 0) (s [q, r] p) = s [q, r] (shape 3)
      ∧ learnAnswer 3 (a 2 (.descriptor d)) none (s [q, r] p) = s [q, r] (shape 2)
      ∧ learnAnswer 3 (a 3 (.count 3)) none (s [q, r] p) = s [q] { p with count := some 3 }
      ∧ learnAnswer 3 (a 4 (.count 4)) none (s [q, r] p) = s [q, r] { p with count := some 4 } := by decide +kernel

/-- A frame's sequence and condition: the first frame, the next in the run, a break, a saturated count, a claim frame, and OFF. -/
theorem test_sequenceAndCondition :
    let f (sequence : Byte) (c : Cond) : Frame := { frameOf 2 4 with sequence := sequence, cond := c }
    let fault : Cond := ⟨false, false, true⟩
    let p (last : Option Byte) (missed : Byte) (c : Cond) : PeerRecord :=
      { peer2 with lastSequence := last, framesMissed := missed, lastCond := c }
    let s (p : PeerRecord) : State := { member with peers := member.peers.set 1 p }
    (f 9 fault).data.length = (8 + 7) / 8 ∧ (f 9 fault).answer = none
      ∧ peerArrival (f 9 fault) (s (p none 0 Cond.clear)) = { s (p (some 9) 0 fault) with raised := [⟨.peer, 3, 2, 0, 4, 7⟩] }
      ∧ peerArrival (f 0 Cond.clear) (s (p (some 255) 3 Cond.clear)) = s (p (some 0) 3 Cond.clear)
      ∧ peerArrival (f 255 Cond.clear) (s (p (some 255) 3 Cond.clear)) = s (p (some 255) 4 Cond.clear)
      ∧ peerArrival (f 7 Cond.clear) (s (p (some 5) 255 Cond.clear)) = s (p (some 7) 255 Cond.clear)
      ∧ peerArrival { f 7 fault with kind := .claimFrame } (s (p (some 6) 0 Cond.clear)) = s (p (some 7) 0 Cond.clear)
      ∧ peerArrival (f 7 fault) off = off := by decide +kernel

/-- An UNSEEN peer, and one ABSENT with a FAILED catalogue, become PRESENT; a data section of the wrong length clears a KNOWN catalogue. -/
theorem test_peersPresentAndChecked :
    ( let t := gainSlot 3 member
      (member.peer 3).heardSlots = 0 ∧ (member.peer 3).catalogue ≠ .known ∧ member.collectorFree
        ∧ t = { member with
                peers := member.peers.set 2 { PeerRecord.reset with presence := .present, heardSlots := 1 }
                raised := [⟨.peer, 1, 3, 0, 1, 7⟩] })
      ∧ (let p : PeerRecord := { PeerRecord.reset with presence := .absent, catalogue := .failed, wentAbsent := true }
        let e (st : EntryState) : ImageEntry := { resolving2 with state := st }
        let s : State := { member with peers := member.peers.set 2 p, image := [e .lost, e (.failed .noCatalogue), fresh0] }
        (gainSlot 3 s).peers = s.peers.set 2 { p with presence := .present, heardSlots := 1, catalogue := .fetching }
          ∧ (gainSlot 3 s).image.map (·.state) = [.resolving, .resolving, .fresh])
      ∧ ((member.peer 2).layout = some ⟨8, [some 0]⟩ ∧ checkLayout 2 (frameOf 2 1) member = member)
      ∧ (let t := checkLayout 2 { frameOf 2 1 with data := [1, 2] } member
        t.peers = member.peers.set 1
            { peer2 with
              catalogue := .fetching, shapes := List.replicate 32 none, count := none, layout := none, faults := ⟨false, true, false⟩ }
          ∧ t.image.map (·.state) = [.resolving, .resolving, .resolving] ++ List.replicate 125 .free)
      ∧ (let s : State := { member with image := [resolving2] }
        (checkLayout 2 { frameOf 2 1 with data := [] } s).raised = [⟨.peer, 4, 2, 2, 2, 7⟩, ⟨.peer, 7, 2, 0, 1, 7⟩]) := by
  decide +kernel

/-- A peer that went ABSENT with a KNOWN catalogue of one sent entry and one that is not. -/
def known3 : PeerRecord :=
  { PeerRecord.reset with
    presence := .absent, catalogue := .known, shapes := some shape8 :: some ⟨.w16, .signed, .accepted⟩ :: List.replicate 30 none
    count := some 2, layout := some ⟨8, [some 0, none]⟩ }

/-- A peer PRESENT again whose catalogue is KNOWN: its LOST and RESOLVING entries are judged at once. -/
theorem test_presentWithAKnownCatalogue :
    let e (st : EntryState) (point : Nat) : ImageEntry := { resolving2 with state := st, point := point, value := 6, age := 5 }
    let s : State :=
      { member with
        peers := member.peers.set 2 known3, image := [e .lost 0, fresh0, e .resolving 1, e .lost 4, e .resolving 0, e (.failed .noPoint) 0] }
    let t := gainSlot 3 s
    let waits (e : ImageEntry) : ImageEntry := { e with state := .waiting, age := 0, layout := some ⟨0, .w8, .unsigned⟩ }
    s.collectorFree
      ∧ t.image = [waits (e .lost 0), fresh0, e (.failed .notPublished) 1, e (.failed .noPoint) 4, waits (e .resolving 0), e (.failed .noPoint) 0]
      ∧ t.raised = [⟨.peer, 1, 3, 0, 1, 7⟩, ⟨.entry, 7, 2, 1, 6, 7⟩, ⟨.entry, 6, 3, 1, 6, 7⟩] := by decide +kernel

theorem test_knownCataloguesOfAMember : member.CatalogueLaw ∧ peer2.complete ∧ known3.complete := by
  have two : peer2.complete := by
    refine ⟨by decide, fun _ => ⟨1, ⟨8, [some 0]⟩, rfl, rfl, fun i hi => ?_⟩⟩
    have : i = 0 := by omega
    subst this
    exact ⟨shape8, rfl, by decide⟩
  have three : known3.complete := by
    refine ⟨by decide, fun _ => ⟨2, ⟨8, [some 0, none]⟩, rfl, rfl, fun i hi => ?_⟩⟩
    rcases (by omega : i = 0 ∨ i = 1) with h | h <;> subst h
    · exact ⟨shape8, rfl, by decide⟩
    · exact ⟨⟨.w16, .signed, .accepted⟩, rfl, by decide⟩
  have reset : PeerRecord.reset.complete := ⟨by decide, fun h => absurd h (by decide)⟩
  refine ⟨fun p hp => ?_, two, three⟩
  rcases (by simpa [member] using hp : p = PeerRecord.reset ∨ p = peer2 ∨ p = PeerRecord.reset) with h | h | h <;> subst h <;> assumption

/-- The entries that a wrong layout sets back, and their events. -/
theorem test_aWrongLayoutResolvesTheEntries :
    let s : State := { member with image := [fresh0, waiting1, resolving2, { resolving2 with source := 2, state := .failed .noPoint }] }
    let t := checkLayout 2 { frameOf 2 1 with data := [1, 2] } s
    t.image.map (·.state) = [.resolving, .resolving, .resolving, .resolving]
      ∧ ofKind .entry t.raised = [⟨.entry, 8, 0, 3, 15, 7⟩, ⟨.entry, 8, 1, 2, 0, 7⟩, ⟨.entry, 8, 3, 6, 0, 7⟩] := by decide +kernel

/-- A contradicting descriptor is learned afresh; the last shape below the count, and the count itself, complete a catalogue. -/
theorem test_cataloguesConflictAndComplete :
    let d : Descriptor := ⟨.w8, .unsigned, .published, 0, 9, [], []⟩
    let a (i : Nat) (c : Content) : AnswerSection := ⟨4, 9, .readEntry, i, .ok, c⟩
    let p (shapes : List (Option Shape)) (count : Option Nat) : PeerRecord :=
      { PeerRecord.reset with presence := .present, catalogue := .fetching, shapes := shapes, count := count }
    let s (p : PeerRecord) : State := { member with image := [fresh0], peers := member.peers.set 2 p }
    let one : List (Option Shape) := some shape8 :: List.replicate 31 none
    let known (shapes : List (Option Shape)) (c : Nat) (layout : PeerLayout) : State :=
      { s { p shapes (some c) with catalogue := .known, layout := some layout } with
        raised := [⟨.peer, 5, 3, c, BitVec.ofNat 32 layout.bits, 7⟩] }
    (∀ r ∈ (s (p one none)).req.list, r.origin = .application) ∧ (∀ e ∈ (s (p one none)).image, e.source ≠ 3)
      ∧ learnAnswer 3 (a 0 (.descriptor { d with width := .w16 })) none (s (p one (some 2)))
          = { s { p (some ⟨.w16, .unsigned, .published⟩ :: List.replicate 31 none) none with faults := ⟨false, false, true⟩ } with
              raised := [⟨.peer, 4, 3, 3, 4, 7⟩] }
      ∧ learnAnswer 3 (a 1 (.descriptor { d with width := .w16 })) none (s (p one (some 2)))
          = known (some shape8 :: some ⟨.w16, .unsigned, .published⟩ :: List.replicate 30 none) 2 ⟨24, [some 0, some 8]⟩
      ∧ learnAnswer 3 (a 1 (.count 1)) none (s (p one none)) = known one 1 ⟨8, [some 0]⟩ := by decide +kernel

/-- A FETCHING peer 3 that holds these shapes and this count, and an answer of its. -/
def learning (shapes : List (Option Shape)) (count : Option Nat) (image : List ImageEntry) : State :=
  let p : PeerRecord := { PeerRecord.reset with presence := .present, catalogue := .fetching, shapes := shapes, count := count }
  { member with image := image, peers := member.peers.set 2 p }
def describing (i : Nat) (w : Width) : AnswerSection := ⟨4, 9, .readEntry, i, .ok, .descriptor ⟨w, .unsigned, .published, 0, 9, [], []⟩⟩
def counting (i c : Nat) : AnswerSection := ⟨4, 9, .readEntry, i, .catalogueEnd, .count c⟩
def wide : Shape := ⟨.w32, .unsigned, .published⟩
def held (shapes : List Shape) : List (Option Shape) := shapes.map some ++ List.replicate (32 - shapes.length) none

/-- Who learns: not a KNOWN catalogue, nor this station's own record; an UNKNOWN or FAILED one is FETCHING first. -/
theorem test_whoLearns :
    let first (st : CatalogueState) : State := { member with peers := member.peers.set 2 { PeerRecord.reset with catalogue := st } }
    let failed : State := { first .failed with image := [{ resolving2 with state := .failed .noCatalogue }, fresh0] }
    let after (c : CatalogueState) : PeerRecord :=
      { PeerRecord.reset with catalogue := c, shapes := held [shape8] }
    learnAnswer 2 (describing 0 .w16) none member = member ∧ learnAnswer 1 (describing 0 .w16) none member = member
      ∧ learnAnswer 0 (describing 0 .w16) none member = member ∧ failed.collectorFree
      ∧ learnAnswer 3 (describing 0 .w8) none (first .unknown) = { member with peers := member.peers.set 2 (after .fetching) }
      ∧ learnAnswer 3 (describing 0 .w8) none failed
        = { failed with peers := member.peers.set 2 (after .fetching), image := [resolving2, fresh0] } := by decide +kernel

/-- What is held already changes nothing; each contradiction, and more than 384 published bits, clears and is learned afresh. -/
theorem test_contradictions :
    let one := held [shape8]
    let fault : EventRecord := ⟨.peer, 4, 3, 3, 4, 7⟩
    let entry : ImageEntry := { waiting1 with source := 3 }
    let cleared (shapes : List (Option Shape)) (count : Option Nat) : PeerRecord :=
      { PeerRecord.reset with
        presence := .present, catalogue := .fetching, shapes := shapes, count := count, faults := ⟨false, false, true⟩ }
    let clears (a : AnswerSection) (s : State) (p : PeerRecord) : Bool :=
      let t := learnAnswer 3 a none s
      t.peers == s.peers.set 2 p && ofKind .peer t.raised == [fault]
        && t.image == [{ entry with state := .resolving, layout := none }] && ofKind .entry t.raised == [⟨.entry, 8, 0, 2, 0, 7⟩]
    learnAnswer 3 (describing 0 .w8) none (learning one (some 2) []) = learning one (some 2) []
      ∧ learnAnswer 3 (counting 2 2) none (learning one (some 2) []) = learning one (some 2) []
      ∧ clears (describing 0 .w16) (learning one (some 2) [entry]) (cleared (held [⟨.w16, .unsigned, .published⟩]) none) = true
      ∧ clears (describing 0 .w8) (learning (held []) (some 0) [entry]) (cleared one none) = true
      ∧ clears (counting 3 3) (learning one (some 2) [entry]) (cleared (held []) (some 3)) = true
      ∧ clears (counting 1 1) (learning (held [shape8, shape8]) none [entry]) (cleared (held []) (some 1)) = true
      ∧ clears (counting 13 13) (learning (held (List.replicate 13 wide)) none [entry]) (cleared (held []) (some 13)) = true
      ∧ clears (describing 12 .w32) (learning (held (List.replicate 12 wide)) (some 13) [entry])
          (cleared (none :: List.replicate 11 none ++ some wide :: List.replicate 19 none) none) = true := by decide +kernel

/-- A contradicting count of 0 completes at once; with 32 shapes the catalogue completes without a count. -/
theorem test_completionsAtTheirEdges :
    let empty := learnAnswer 3 (counting 0 0) none (learning (held [shape8]) (some 1) [])
    let full := learnAnswer 3 (describing 31 .w8) none (learning (held (List.replicate 31 shape8)) none [])
    empty.raised = [⟨.peer, 4, 3, 3, 4, 7⟩, ⟨.peer, 5, 3, 0, 0, 7⟩]
      ∧ empty.peer 3
        = { PeerRecord.reset with
            presence := .present, catalogue := .known, count := some 0, layout := some ⟨0, []⟩, faults := ⟨false, false, true⟩ }
      ∧ full.raised = [⟨.peer, 5, 3, 32, 256, 7⟩] ∧ (full.peer 3).layout = some ⟨256, (List.range 32).map fun i => some (8 * i)⟩
      ∧ (learnAnswer 3 (counting 32 32) none (learning (held (List.replicate 32 shape8)) none [])).raised
        = [⟨.peer, 5, 3, 32, 256, 7⟩] := by decide +kernel

/-- A catalogue that becomes KNOWN resolves its peer's RESOLVING entries in order: WAITING, FAILED NOT_PUBLISHED and FAILED NO_POINT. -/
theorem test_knownResolvesTheEntries :
    let e (point : Nat) : ImageEntry := { resolving2 with point := point }
    let failed (point : Nat) (f : FailReason) : ImageEntry := { e point with state := .failed f }
    let s := learning (held [shape8, ⟨.w16, .signed, .accepted⟩]) none [e 2, fresh0, e 0, e 1, e 3]
    let t := learnAnswer 3 (counting 3 3) none { s with peers := s.peers.modify 2 fun p => { p with shapes := p.shapes.set 2 (some wide) } }
    s.collectorFree
      ∧ t.image
        = [{ e 2 with state := .waiting, layout := some ⟨8, .w32, .unsigned⟩ }, fresh0,
            { e 0 with state := .waiting, layout := some ⟨0, .w8, .unsigned⟩ }, failed 1 .notPublished, failed 3 .noPoint]
      ∧ t.raised = [⟨.peer, 5, 3, 3, 40, 7⟩, ⟨.entry, 7, 3, 1, 0, 7⟩, ⟨.entry, 6, 4, 1, 0, 7⟩]
      ∧ (t.peer 3).layout = some ⟨40, [some 0, none, some 8]⟩ := by decide +kernel

/-! ### Frames as bytes and levels -/

/-- The largest frame: 96 bytes. -/
def largest : Frame :=
  { frameOf 32 7 with
    request := some ⟨15, 32, .writePoint, 31, some 0xDEADBEEF⟩
    answer :=
      some ⟨15, 32, .readEntry, 31, .ok, .descriptor ⟨.w32, .signed, .both, 1, 2, List.replicate 8 0x41, List.replicate 4 0x42⟩⟩
    data := List.replicate 48 0x55 }

theorem test_framesReadAsTheyWereSent :
    (frameBytes largest).length = 96 ∧ readFrame ((frameBytes largest).take 94) = some largest
      ∧ classify member.ctl.config (frameBytes { frameOf 5 7 with kind := .claimFrame, data := [] }) false
          = (.good, some { frameOf 5 7 with kind := .claimFrame, data := [] }) := by decide +kernel

theorem test_largestIsWellFormed : member.ctl.config.inRange ∧ largest.wellFormed member.ctl.config := by
  refine ⟨by unfold Configuration.inRange; decide, by decide, by decide, by decide, by decide, by decide, fun h => absurd h (by decide), ?_, ?_⟩
  · intro r hr
    cases hr
    exact ⟨by decide, by decide, by decide, by decide⟩
  · intro a ha
    cases ha
    exact ⟨by decide, by decide, by decide, by decide, rfl, rfl, by decide, by decide, by decide⟩

/-- The manual's check value, and arrivals at the edges of the length test. -/
theorem test_crcAndLength :
    crc [0x31, 0x32, 0x33, 0x34, 0x35, 0x36, 0x37, 0x38, 0x39] = 0x29B1
      ∧ (classify member.ctl.config (withCrc (List.replicate 8 0)) false).1 = .format
      ∧ (classify member.ctl.config (List.replicate 97 0) false).1 = .format
      ∧ (classify member.ctl.config (List.replicate 9 0) false).1 = .format
      ∧ (classify member.ctl.config (List.replicate 10 0) false).1 = .badCrc
      ∧ member.ctl.config.planMark = 71 ∧ (⟨1, 64, 3, 1, 0⟩ : Configuration).planMark = 255 := by decide +kernel

/-- Bytes with a right CRC: each condition of R10 broken alone, the values at its edges, and the order of plan mark and slot. -/
theorem test_classesOfBytesWithTheirCrc :
    let c := member.ctl.config
    let cls (body : List Byte) : ArrivalClass := (classify c (withCrc body) false).1
    let header (kind source slot plan cond flags length : Byte) : List Byte := [kind, source, slot, plan, 9, cond, flags, length]
    let slotFrame (flags length : Byte) (rest : List Byte) : List Byte := header 0x30 5 0 71 0 flags length ++ rest
    let request (bytes : List Byte) : List Byte := slotFrame 1 0 bytes
    let answer (bytes : List Byte) : List Byte := slotFrame 2 0 bytes
    let described (width format direction nameLength unitLength : Byte) : List Byte :=
      answer ([15, 32, 1, 31, 0, width, format, direction] ++ List.replicate 8 0 ++ nameLength :: List.replicate nameLength.toNat 0x41
        ++ unitLength :: List.replicate unitLength.toNat 0x42)
    [ header 0x31 5 0 71 0 0 0, header 0x30 0 0 71 0 0 0, header 0x30 33 0 71 0 0 0, header 0x30 5 0 71 8 0 0, header 0x30 5 0 71 0 4 0
    , header 0x38 5 0 71 0 1 0 ++ [0, 0, 1, 0], header 0x38 5 0 71 0 0 1 ++ [7], slotFrame 0 49 (List.replicate 49 7), slotFrame 0 2 [7]
    , slotFrame 0 0 [7], request [16, 0, 1, 0], request [0, 33, 1, 0], request [0, 0, 0, 0], request [0, 0, 4, 0], request [0, 0, 1, 32]
    , request [0, 0, 3, 0], answer [16, 1, 2, 0, 2], answer [0, 0, 2, 0, 2], answer [0, 33, 2, 0, 2], answer [0, 1, 4, 0, 2]
    , answer [0, 1, 2, 32, 2], answer [0, 1, 2, 0, 5], answer [0, 1, 2, 0, 3], answer [0, 1, 1, 0, 2], answer [0, 1, 3, 0, 1, 1]
    , answer [0, 1, 1, 0, 1, 33], described 2 0 1 0 0, described 8 3 1 0 0, described 1 1 1 0 0, described 8 0 0 0 0, described 8 0 4 0 0
    , described 8 0 1 9 0, described 8 0 1 0 5, header 0x30 5 8 71 0 0 0 ].all (cls · == .format) = true
      ∧ [ header 0x30 32 7 71 7 0 0, header 0x38 1 0 71 0 0 0, slotFrame 0 48 (List.replicate 48 7), request [15, 32, 2, 31]
        , request [0, 0, 3, 0, 1, 2, 3, 4], answer [15, 32, 2, 31, 2], answer [0, 1, 1, 0, 1, 32], answer [0, 1, 3, 0, 4, 1, 2, 3, 4]
        , described 32 2 3 8 4 ].all (cls · == .good) = true
      ∧ cls (header 0x30 5 7 70 0 0 0) = .planMismatch ∧ cls (header 0x30 5 8 70 0 0 0) = .planMismatch
      ∧ classify c (withCrc (header 0x30 5 7 71 7 0 0)) false
        = (.good, some { frameOf 5 7 with cond := ⟨true, true, true⟩, data := [] }) := by decide +kernel

theorem test_arbitration :
    let f : Frame := { frameOf 2 0 with kind := .claimFrame, data := [] }
    losesTo (frameLevels (frameBytes f)) (frameLevels (frameBytes (frameOf 32 0))) = true
      ∧ losesTo (frameLevels (frameBytes (frameOf 32 0))) (frameLevels (frameBytes f)) = false
      ∧ losesTo (frameLevels (frameBytes (frameOf 3 0))) (frameLevels (frameBytes (frameOf 2 0))) = true := by decide +kernel

/-! ### Slot time -/

def at_ (k : Nat) (r : SlotRecord) : State :=
  { member with slot := { member.slot with counter := k, map := (List.replicate 8 clear).set k r } }

theorem test_endOfSlot :
    let s (k : Nat) (r : SlotRecord) : State := { at_ k r with slot := { (at_ k r).slot with timer := 1023 } }
    let passed (k next : Nat) (r : SlotRecord) (silence : Option Nat) : State :=
      { member with
        line := { member.line with run := 1 }
        slot := { member.slot with timer := 0, counter := next, map := (List.replicate 8 clear).set k r }
        due := { Due.none with silence := silence, boundary := next == 0, start := true } }
    let row := Instr.endOfSlot [] .recessive
    (off.quiet ∧ off.line.tx = none ∧ (off.heard .recessive).ended = false ∧ gives row off (off.afterBit .recessive) = true)
      ∧ ((s 7 ⟨.owned 0, true, false, false⟩).quiet
        ∧ gives row (s 7 ⟨.owned 0, true, false, false⟩) (passed 7 0 ⟨.owned 0, false, true, false⟩ none) = true)
      ∧ gives row (s 2 ⟨.heard 5 2, true, true, true⟩) (passed 2 3 ⟨.heard 5 2, false, true, false⟩ none) = true
      ∧ gives row (s 2 ⟨.heard 5 1, false, true, false⟩) (passed 2 3 ⟨.heard 5 2, false, false, false⟩ none) = true
      ∧ gives row (s 2 ⟨.heard 5 2, false, true, false⟩) (passed 2 3 ⟨.heard 5 2, false, false, false⟩ (some 2)) = true := by
  decide +kernel

theorem test_silenceLimit :
    let s (p : PeerRecord) : State :=
      { at_ 1 ⟨.heard 2 2, false, false, false⟩ with peers := member.peers.set 1 p, due := { Due.none with silence := some 1 } }
    (member.live ∧ member.settled ∧ gives .silenceLimit member member = true)
      ∧ gives .silenceLimit (s { peer2 with heardSlots := 2 })
          { member with slot := { member.slot with counter := 1, map := List.replicate 8 clear } } = true
      ∧ leads .silenceLimit (s peer2)
          (fun t => (t.peer 2).presence == .absent && (t.peer 2).wentAbsent && (t.peer 2).catalogue == .unknown
            && (t.entry 0).state == .lost && (t.entry 1).state == .lost && (t.entry 2).state == .resolving
            && t.host.events.contains ⟨.peer, 2, 2, 0, 0, 7⟩) = true := by decide +kernel

/-- A peer that is gone ends its application records in list order, each with its chain; with none, nothing. -/
theorem test_requestsAbsent :
    let r (id tag target : Nat) (p : Option Nat) : RequestRecord := { record0 with id := id, tag := tag, target := target, predecessor := p }
    let gone (r : RequestRecord) : RequestRecord := { r with state := .failed, outcome := some .targetGone }
    let broken (r : RequestRecord) : RequestRecord := { r with state := .failed, outcome := some .chainBroken }
    let s := asking [r 0 4 3 none, r 1 5 2 none, r 2 6 5 (some 1), r 3 7 2 (some 2), { r 4 8 2 none with state := .sent, attempts := 1 }]
    let t := requestsAbsent 2 s
    let plain := asking [r 0 4 2 none, r 1 5 3 none, r 2 6 2 none]
    (s.req.list.map (·.id)).Nodup ∧ requestsAbsent 4 s = s
      ∧ requestsAbsent 2 s = requestsAbsent 2 (endRecord 1 .targetGone .nothing s)
      ∧ t.req.list
        = [r 0 4 3 none, gone (r 1 5 2 none), broken (r 2 6 5 (some 1)), broken (r 3 7 2 (some 2)),
            gone { r 4 8 2 none with state := .sent, attempts := 1 }]
      ∧ t.raised = [⟨.request, 6, 5, 2, 0, 7⟩, ⟨.request, 7, 6, 5, 0, 7⟩, ⟨.request, 7, 7, 2, 0, 7⟩, ⟨.request, 6, 8, 2, 0, 7⟩]
      ∧ requestsAbsent 2 plain
        = { asking [gone (r 0 4 2 none), r 1 5 3 none, gone (r 2 6 2 none)] with
            raised := [⟨.request, 6, 4, 2, 0, 7⟩, ⟨.request, 6, 6, 2, 0, 7⟩] } := by decide +kernel

/-- The silence that ends a peer's presence: its entries, its discovery record and its application records, each with its event. -/
theorem test_silenceReachesTheEntriesAndRequests :
    let discovery : RequestRecord := { record0 with origin := .discovery, id := 1, tag := 5 }
    let s : State :=
      { at_ 1 ⟨.heard 2 2, false, false, false⟩ with
        peers := member.peers.set 1 peer2, due := { Due.none with silence := some 1 }
        req := { member.req with list := [record0, discovery] } }
    leads .silenceLimit s (fun t =>
      t.req.list == [{ record0 with state := .failed, outcome := some .targetGone }]
        && ofKind .peer t.host.events == [⟨.peer, 2, 2, 0, 0, 7⟩]
        && ofKind .entry t.host.events == [⟨.entry, 4, 0, 3, 15, 7⟩, ⟨.entry, 4, 1, 2, 0, 7⟩]
        && ofKind .request t.host.events == [⟨.request, 6, 4, 2, 0, 7⟩]) = true := by decide +kernel

def boundaryDue (s : State) : State := { s with due := { Due.none with boundary := true, start := true } }

/-- Station 1 prefers slot 0. The first FREE slot without activity last round is taken; with none the station is STARVED, once. -/
theorem test_roundBoundary :
    let reactions : Due := ⟨none, false, true, true, true, true, true, true, true⟩
    let busy : SlotRecord := ⟨.free, false, true, false⟩
    let s (m : List SlotRecord) (starved : Bool) : State :=
      { member with slot := { member.slot with map := m, starved := starved } }
    let after (m : List SlotRecord) (starved : Bool) : State :=
      { member with slot := { member.slot with map := m, starved := starved, round := 8 }, due := reactions }
    ((boundaryDue member).due = { Due.none with boundary := true, start := true }
      ∧ gives .roundBoundary (boundaryDue member) { member with slot := { member.slot with round := 8 }, due := reactions } = true)
      ∧ gives .roundBoundary (boundaryDue (s (busy :: List.replicate 7 clear) true))
          (after (busy :: ⟨.claiming 0, false, false, false⟩ :: List.replicate 6 clear) false) = true
      ∧ gives .roundBoundary (boundaryDue (s (List.replicate 8 busy) false))
          ((after (List.replicate 8 busy) true).withEvent .slot 4 0 0 2) = true
      ∧ gives .roundBoundary (boundaryDue (s (List.replicate 8 busy) true)) (after (List.replicate 8 busy) true) = true
      ∧ (let counted (a : SnapshotUnit) : State :=
          { member with slot := { member.slot with round := 8 }, due := reactions, unitA := a }
        gives .roundBoundary (boundaryDue { member with unitA := collectingA }) (counted { collectingA with deadlineDue := true }) = true
          ∧ gives .roundBoundary (boundaryDue { member with unitA := begunA }) (counted begunA) = true) := by
  decide +kernel

def startDue (s : State) : State := { s with due := { Due.none with start := true } }

theorem test_startOfSlot :
    (member.live ∧ member.settled ∧ gives .startOfSlot member member = true)
      ∧ (let s : State := { member with slot := { member.slot with counter := 2 } }
        gives .startOfSlot (startDue s)
          { s with line := { s.line with tx := some ⟨.claimFrame, 2, withCrc [0x38, 1, 2, 71, 0, 0, 0, 0], none, none, .assembled, false, false⟩ } }
          = true)
      ∧ (let answer : Answer := ⟨6, 9, 3, .readPoint, 0, .ok, .value 5⟩
        let s : State :=
          { asking [{ record0 with predecessor := some 1 }, { record0 with id := 1, tag := 6, state := .sent, attempts := 1 },
              { record0 with id := 2, tag := 7 }] with
            slot := { member.slot with counter := 0 }
            pub := { member.pub with answers := [answer] } }
        (s.req.list.map (·.id)).Nodup
          ∧ gives .startOfSlot (startDue s)
              { s with
                line :=
                  { s.line with
                    tx :=
                      some
                        ⟨.slotFrame, 0,
                          withCrc [0x30, 1, 0, 71, 0, 0, 3, 1, 7, 2, 2, 0, 3, 9, 2, 0, 0, 0, 0, 0, 5, 5],
                          some 6, some 2, .assembled, false, false⟩ } } = true)
      ∧ (let s := onLine fun l => { l with hold := true }
        gives .startOfSlot (startDue { s with slot := { s.slot with counter := 0 } }) { s with slot := { s.slot with counter := 0 } } = true)
      ∧ gives .startOfSlot (startDue member) member = true := by decide +kernel

theorem test_stationFollows :
    let listening (n : Nat) : State :=
      { member with
        ctl := { member.ctl with state := .listening, listening := n }, slot := { member.slot with map := [] }
        due := { Due.none with listen := true } }
    let held (s : State) : State := { s with line := { s.line with hold := true } }
    let leaving (n : Nat) : State :=
      { member with ctl := { member.ctl with state := .leaving, leaving := n }, due := { Due.none with leaving := true } }
    let host (n : Nat) : State := { member with ctl := { member.ctl with hostLoss := n }, due := { Due.none with host := true } }
    (gives .listenEnd member member = true
      ∧ gives .listenEnd (listening 0) { listening 1 with due := Due.none } = true
      ∧ gives .listenEnd (held (listening 1))
          ({ held (listening 2) with due := Due.none, ctl := { (listening 2).ctl with state := .claiming } }.withEvent .station 1 1 2 2) = true
      ∧ leads .listenEnd (listening 1) (fun t => t.ctl == { (listening 2).ctl with state := .claiming }) = true)
      ∧ (let busy : SlotRecord := ⟨.free, false, true, false⟩
        let s (m : List SlotRecord) (starved : Bool) : State :=
          { listening 1 with slot := { member.slot with map := m, starved := starved } }
        let claiming (m : List SlotRecord) (starved : Bool) : State :=
          { s m starved with due := Due.none, ctl := { (listening 2).ctl with state := .claiming } }
        let entered : EventRecord := ⟨.station, 1, 1, 2, 2, 7⟩
        let starved : EventRecord := ⟨.slot, 4, 0, 0, 2, 7⟩
        (s [] false).line.hold = false ∧ (s [] false).ownedCount + (s [] false).claimingCount < 2
          ∧ gives .listenEnd (s (busy :: List.replicate 7 clear) true)
              ((claiming (busy :: ⟨.claiming 0, false, false, false⟩ :: List.replicate 6 clear) false).withEvent .station 1 1 2 2) = true
          ∧ gives .listenEnd (s (List.replicate 7 busy ++ [clear]) true)
              ((claiming (List.replicate 7 busy ++ [⟨.claiming 0, false, false, false⟩]) false).withEvent .station 1 1 2 2) = true
          ∧ gives .listenEnd (s (List.replicate 8 busy) true)
              ((claiming (List.replicate 8 busy) true).withEvent .station 1 1 2 2) = true
          ∧ leads .listenEnd (s (List.replicate 8 busy) false) (fun t =>
              t.slot == (s (List.replicate 8 busy) true).slot
                && (t.host.events == [entered, starved] || t.host.events == [starved, entered])) = true)
      ∧ (gives .leavingLimit (leaving 0) { leaving 1 with due := Due.none } = true
        ∧ leads .leavingLimit (leaving 1) (fun t => t.ctl.state == .off && t.ctl.leaving == 0 && t.ownedCount == 0) = true)
      ∧ (gives .hostLost (host 8) { host 9 with due := Due.none } = true
        ∧ gives .hostLost (host 9)
            ({ host 10 with due := Due.none, ctl := { (host 10).ctl with cond := ⟨true, false, false⟩ } }.withEvent .station 2 1 0 10)
            = true
        ∧ gives .hostLost { off with due := { Due.none with host := true } } off = true) := by decide +kernel

/-- The leaving limit's event. -/
theorem test_leavingLimitEvent :
    let s : State := { member with ctl := { member.ctl with state := .leaving, leaving := 1 }, due := { Due.none with leaving := true } }
    leads .leavingLimit s (fun t => ofKind .station t.host.events == [⟨.station, 1, 1, 7, 0, 7⟩] && t.pub.answers == []) = true := by
  decide +kernel

theorem test_entriesAge :
    let s : State :=
      { member with
        image := [{ fresh0 with age := 2, fallback := some 6 }, { waiting1 with state := .stale, age := 15 }, fresh0, waiting1]
        due := { Due.none with ages := true } }
    s.live ∧ s.settled
      ∧ leads .staleAge s
          (fun t => (t.entry 0).state == .stale && (t.entry 0).value == 6 && (t.entry 0).age == 3 && (t.entry 1).age == 15
            && t.entry 2 == { fresh0 with age := 2 } && t.entry 3 == waiting1
            && t.host.events == [⟨.entry, 2, 0, 3, 6, 7⟩, ⟨.watch, 2, 0, 3, 6, 7⟩]) = true
      ∧ gives .staleAge member member = true := by decide +kernel

theorem test_waitsExpire :
    let sent (id attempts wait : Nat) : RequestRecord :=
      { record0 with id := id, tag := id, state := .sent, attempts := attempts, wait := wait }
    let s : State := { asking [sent 0 1 2, sent 1 2 1, sent 2 3 1, { record0 with id := 3 }] with due := { Due.none with waits := true } }
    let d : State :=
      { asking [{ sent 0 3 1 with origin := .discovery }] with
        peers := member.peers.set 1 { peer2 with catalogue := .fetching }, due := { Due.none with waits := true } }
    s.live ∧ s.settled ∧ (s.req.list.map (·.id)).Nodup ∧ s.ctl.state ≠ .off
      ∧ gives .answerWaitExpiry s
          ({ asking
              [{ sent 0 1 2 with wait := 1 }, { sent 1 2 1 with wait := 0, state := .waiting },
                { sent 2 3 1 with wait := 0, state := .failed, outcome := some .noAnswer }, { record0 with id := 3 }] with
              due := Due.none }.withEvent .request 5 2 2 0) = true
      ∧ leads .answerWaitExpiry d
          (fun t => t.req.list == [] && (t.peer 2).catalogue == .failed && (t.peer 2).fetchFailures == 1) = true := by decide +kernel

/-- One record's wait: less, WAITING again, ended with its chain; a discovery record among others ends its peer's FETCHING catalogue and the
entries that want it, and is only removed where the catalogue is not FETCHING. -/
theorem test_waitsOfEachRecord :
    let r (id attempts wait : Nat) : RequestRecord :=
      { record0 with id := id, tag := id, state := .sent, attempts := attempts, wait := wait }
    let behind : RequestRecord := { record0 with id := 1, tag := 1, predecessor := some 0 }
    let discovery : RequestRecord := { r 2 3 1 with origin := .discovery, target := 3, index := 6 }
    let p (st : CatalogueState) : PeerRecord := { PeerRecord.reset with presence := .present, catalogue := st, fetchFailures := 4 }
    let s (rs : List RequestRecord) (st : CatalogueState) : State :=
      { asking rs with peers := member.peers.set 2 (p st), image := [fresh0, resolving2], due := { Due.none with waits := true } }
    let wait (rs : List RequestRecord) (id : Nat) : State := waitRecord discoveryNoAnswer (s rs .fetching) id
    let mixed := [r 0 1 2, discovery, behind]
    let failedPeer : PeerRecord := { p .failed with fetchFailures := 5 }
    let failedEntry : ImageEntry := { resolving2 with state := .failed .noCatalogue }
    let t := wait mixed 2
    (mixed.map (·.id)).Nodup ∧ (s mixed .fetching).settled
      ∧ wait mixed 0 = s [r 0 1 1, discovery, behind] .fetching ∧ wait mixed 1 = s mixed .fetching
      ∧ wait [r 0 2 1, behind] 0 = s [{ r 0 2 0 with state := .waiting }, behind] .fetching
      ∧ wait [r 0 3 1, behind] 0 = endRecord 0 .noAnswer .nothing (s [r 0 3 0, behind] .fetching)
      ∧ ofKind .request (wait [r 0 3 1, behind] 0).raised = [⟨.request, 5, 0, 2, 0, 7⟩, ⟨.request, 7, 1, 2, 0, 7⟩]
      ∧ waitRecord discoveryNoAnswer (s mixed .unknown) 2 = s [r 0 1 2, behind] .unknown
      ∧ t.req.list = [r 0 1 2, behind] ∧ t.peers = member.peers.set 2 failedPeer ∧ t.image = [fresh0, failedEntry]
      ∧ ofKind .peer t.raised = [⟨.peer, 6, 3, 6, 5, 7⟩] ∧ ofKind .entry t.raised = [⟨.entry, 5, 1, 1, 0, 7⟩]
      ∧ leads .answerWaitExpiry (s mixed .fetching) (fun t =>
          t.req.list == [r 0 1 1, behind] && t.peers == member.peers.set 2 failedPeer && t.image == [fresh0, failedEntry]
            && ofKind .request t.host.events == [] && ofKind .peer t.host.events == [⟨.peer, 6, 3, 6, 5, 7⟩]
            && ofKind .entry t.host.events == [⟨.entry, 5, 1, 1, 0, 7⟩]) = true := by decide +kernel

theorem test_unitsFollow :
    let periods (s : State) : State := { s with due := { Due.none with periods := true } }
    let round (n : Nat) (x : SnapshotUnit) : SnapshotUnit := { x with trigger := .round 2, periodCount := n }
    ((periods member).collectorFree ∧ gives .roundTrigger (periods member) member = true)
      ∧ gives .roundTrigger (periods (units armedA (round 0 armedB))) (units armedA (round 1 armedB)) = true
      ∧ gives .roundTrigger (periods (units (round 1 armedA) armedB)) { units (round 0 begunA) armedB with began := true } = true
      ∧ gives .roundTrigger (periods (units armedA (round 1 armedB))) { units armedA (round 0 armedB) with called := 1 } = true
      ∧ gives .roundTrigger (periods (units (round 1 armedA) (round 1 armedB)))
          { units (round 0 begunA) { round 0 armedB with state := .pending } with began := true } = true
      ∧ gives .roundTrigger (periods (units (round 1 armedA) (round 1 { armedB with hold := false })))
          { units (round 0 begunA) { round 0 armedB with hold := false, ignored := 1 } with began := true } = true
      ∧ gives .roundTrigger (periods (units { armedA with state := .spent } (round 1 { armedB with set := [0, 2] })))
          (units { armedA with state := .spent } (round 0 { begunA with hold := true })) = true
      ∧ gives .deadlinePassed member member = true
      ∧ gives .deadlinePassed (units { collectingA with deadlineDue := true } armedB)
          (units { collectingA with deadlineCount := 1 } armedB) = true
      ∧ gives .deadlinePassed (units { collectingA with deadlineDue := true, deadlineCount := 1 } armedB)
          ((units
              { collectingA with
                state := .armed, summary := .incomplete, deadlineCount := 2
                places := [⟨0, .missing, 0, 7⟩, ⟨2, .missing, 0, 7⟩] }
              armedB).withEvent .snapshot 2 1 0 2) = true := by decide +kernel

theorem test_discovery :
    let p : PeerRecord := { PeerRecord.reset with presence := .present }
    let s : State := { asking [] with peers := member.peers.set 2 p }
    s.live ∧ (s.peer 3).shapeAt 0 = none
      ∧ equals .discoveryEntry s
          { s with
            peers := member.peers.set 2 { p with catalogue := .fetching }
            req := ⟨[⟨9, 0, .discovery, 3, .readEntry, 0, none, none, false, .waiting, 0, 0, none, .nothing⟩], 0, 0⟩
            serial := 10 } = true
      ∧ equals .discoveryEntry member member = true
      ∧ (let full : State := { s with req := { s.req with list := List.replicate 8 record0 } }
        equals .discoveryEntry full full = true) := by decide +kernel

/-! ### The laws: a MEMBER that keeps them, and takes a step -/

theorem test_aMemberSteps :
    (settle member).ctl.state ≠ .off ∧ stepGives member (member.afterBit .recessive) = true
      ∧ member.host.resetting = .idle := by decide +kernel

theorem test_sizesOfAMember : member.SizesLaw := by
  refine ⟨by unfold Configuration.inRange; decide, by decide, by decide, by decide, by decide +kernel, by decide, ?_, by decide⟩
  intro c hc
  cases (show (none : Option Running) = some c from hc)

theorem test_ownershipAndStateOfAMember : member.OwnershipLaw ∧ member.StationLaw := by
  unfold State.OwnershipLaw State.StationLaw
  decide +kernel

theorem test_stationStateInOff :
    { off with line := { off.line with tx := some { claimTx with offSince := true } } }.StationLaw := by
  unfold State.StationLaw
  decide +kernel

theorem test_queuesOfAMember : member.EventsLaw ∧ member.AnswersLaw := by
  unfold State.EventsLaw State.AnswersLaw
  decide +kernel

theorem test_requestsOfAMember : (asking [record0, { answered0 with id := 1, tag := 5 }]).RequestsLaw := by
  refine ⟨by decide, by decide, by decide, ?_, by decide, by decide⟩
  intro r hr
  have h : r = record0 ∨ r = { answered0 with id := 1, tag := 5 } := by simpa [asking] using hr
  rcases h with h | h <;> subst h <;> simp [RequestRecord.attemptsOk, record0, answered0]

theorem test_unitsAndHoldOfAMember : (units collectingA { armedB with state := .pending }).CollectorLaw ∧ member.HoldLaw := by
  unfold State.CollectorLaw State.HoldLaw
  decide +kernel

theorem test_presenceOfAMember : member.PresenceLaw := by
  have peers : ∀ n ∈ List.range 33, n ≠ 0 → n ≠ 1 →
      (member.peer n).heardSlots = member.heardBy n ∧ ((member.peer n).presence = .present ↔ 0 < member.heardBy n) := by
    decide +kernel
  refine ⟨by decide, fun n h1 h2 h3 => peers n (by simpa using Nat.lt_succ_of_le h2) (by omega) h3, by decide, ?_, by decide⟩
  intro r hr n hn
  have owners : ∀ r ∈ member.slot.map, r.state.owner? = none ∨ r.state.owner? = some 2 := by decide
  rcases owners r hr with h | h <;> rw [h] at hn
  · exact absurd hn (by simp)
  · cases hn
    decide

theorem test_imageOfAMember : member.ImageLaw := by
  unfold State.ImageLaw
  decide +kernel

end Sys2Proof.Tests
end

/-! ## What the reactions of the blocks keep

Every operation that a moment is made of keeps the configuration, the sizes of the tables, the host's running command and the queue, lowers
no counter and keeps the collector's law. `Steady` says so once, as a relation between the state before and the state after, so that an
operation made of others has its lemma by transitivity. -/

namespace Sys2Proof.Machine

/-- None of the counters of the line unit falls from `l` to `m` (R13). -/
def LineUnit.CountsUp (l m : LineUnit) : Prop :=
  l.good ≤ m.good ∧ l.badCrc ≤ m.badCrc ∧ l.format ≤ m.format ∧ l.planMismatch ≤ m.planMismatch
    ∧ l.arbitrationLosses ≤ m.arbitrationLosses ∧ l.holds ≤ m.holds

/-- None of the eleven counters of READ_COUNTERS falls from `s` to `t` (R171). -/
def CountsUp (s t : State) : Prop :=
  s.line.CountsUp t.line ∧ s.slot.outOfStep ≤ t.slot.outOfStep ∧ s.pub.dropped ≤ t.pub.dropped
    ∧ s.pub.notServed ≤ t.pub.notServed ∧ s.pub.broadcastIgnored ≤ t.pub.broadcastIgnored
    ∧ s.req.lateAnswers ≤ t.req.lateAnswers

/-- What no reaction of a block changes, whatever the state of a medium hold. -/
structure Steady (s t : State) : Prop where
  config : t.ctl.config = s.ctl.config
  records : t.slot.map.length = s.slot.map.length
  peers : t.peers.length = s.peers.length
  image : t.image.length = s.image.length
  points : t.pub.catalogue.map (·.descriptor) = s.pub.catalogue.map (·.descriptor)
  args : t.host.args = s.host.args
  running : t.host.running = s.host.running
  resetting : t.host.resetting = s.host.resetting
  pending : t.pending = s.pending
  trig : t.trig = s.trig
  off : s.ctl.state = .off → t.ctl.state = .off
  counter : 0 < s.ctl.config.slots → s.slot.counter < s.ctl.config.slots → t.slot.counter < s.ctl.config.slots
  offCounter : (s.ctl.state = .off → s.slot.counter = 0) → t.ctl.state = .off → t.slot.counter = 0
  counts : CountsUp s t
  collector : s.CollectorLaw → t.CollectorLaw

/-- A reaction that neither begins nor ends a medium hold, and in a hold brings back neither a frame nor an arrival. -/
structure Kept (s t : State) : Prop extends Steady s t where
  hold : t.line.hold = s.line.hold
  noFrame : s.line.hold = true → s.line.tx = none → t.line.tx = none
  waits : s.line.hold = true → s.line.receiver = .waiting → t.line.receiver = .waiting

theorem LineUnit.CountsUp.refl (l : LineUnit) : l.CountsUp l :=
  ⟨BitVec.le_refl _, BitVec.le_refl _, BitVec.le_refl _, BitVec.le_refl _, BitVec.le_refl _, BitVec.le_refl _⟩

theorem LineUnit.CountsUp.trans {l m n : LineUnit} (h : l.CountsUp m) (g : m.CountsUp n) : l.CountsUp n := by
  obtain ⟨h1, h2, h3, h4, h5, h6⟩ := h
  obtain ⟨g1, g2, g3, g4, g5, g6⟩ := g
  exact ⟨BitVec.le_trans h1 g1, BitVec.le_trans h2 g2, BitVec.le_trans h3 g3, BitVec.le_trans h4 g4, BitVec.le_trans h5 g5,
    BitVec.le_trans h6 g6⟩

theorem CountsUp.refl (s : State) : CountsUp s s :=
  ⟨.refl _, BitVec.le_refl _, BitVec.le_refl _, BitVec.le_refl _, BitVec.le_refl _, BitVec.le_refl _⟩

theorem CountsUp.trans {s t u : State} (h : CountsUp s t) (g : CountsUp t u) : CountsUp s u := by
  obtain ⟨h1, h2, h3, h4, h5, h6⟩ := h
  obtain ⟨g1, g2, g3, g4, g5, g6⟩ := g
  exact ⟨h1.trans g1, BitVec.le_trans h2 g2, BitVec.le_trans h3 g3, BitVec.le_trans h4 g4, BitVec.le_trans h5 g5,
    BitVec.le_trans h6 g6⟩

theorem Steady.refl (s : State) : Steady s s where
  config := rfl
  records := rfl
  peers := rfl
  image := rfl
  points := rfl
  args := rfl
  running := rfl
  resetting := rfl
  pending := rfl
  trig := rfl
  off := id
  counter _ := id
  offCounter := id
  counts := .refl s
  collector := id

theorem Steady.trans {s t u : State} (h : Steady s t) (g : Steady t u) : Steady s u where
  config := g.config.trans h.config
  records := g.records.trans h.records
  peers := g.peers.trans h.peers
  image := g.image.trans h.image
  points := g.points.trans h.points
  args := g.args.trans h.args
  running := g.running.trans h.running
  resetting := g.resetting.trans h.resetting
  pending := g.pending.trans h.pending
  trig := g.trig.trans h.trig
  off := g.off ∘ h.off
  counter h0 hc := h.config ▸ g.counter (h.config ▸ h0) (h.config ▸ h.counter h0 hc)
  offCounter := g.offCounter ∘ h.offCounter
  counts := h.counts.trans g.counts
  collector := g.collector ∘ h.collector

theorem Kept.refl (s : State) : Kept s s := ⟨.refl s, rfl, fun _ => id, fun _ => id⟩

theorem Kept.trans {s t u : State} (h : Kept s t) (g : Kept t u) : Kept s u where
  toSteady := h.toSteady.trans g.toSteady
  hold := g.hold.trans h.hold
  noFrame hh ht := g.noFrame (h.hold.trans hh) (h.noFrame hh ht)
  waits hh hr := g.waits (h.hold.trans hh) (h.waits hh hr)

/-- A medium hold stays a quiet one. -/
theorem Kept.holdLaw {s t : State} (h : Kept s t) (hs : s.HoldLaw) : t.HoldLaw := fun ht =>
  have hh := h.hold.symm.trans ht
  ⟨h.noFrame hh (hs hh).1, h.waits hh (hs hh).2⟩

/-- The sizes and ranges stand where the host's returned words do. -/
theorem Steady.sizesLaw {s t : State} (h : Steady s t) (hs : s.SizesLaw) : t.SizesLaw := by
  obtain ⟨hconf, hmap, hcounter, hpeers, himage, hargs, hrun, hoff⟩ := hs
  have hslots : 0 < s.ctl.config.slots := lt_of_lt_of_le (by norm_num) hconf.2.1
  refine ⟨h.config ▸ hconf, ?_, h.config ▸ h.counter hslots hcounter, h.peers.trans hpeers, h.image.trans himage,
    h.args ▸ hargs, h.running ▸ hrun, h.offCounter hoff⟩
  rw [h.records, h.config, hmap]

/-! ### Changes of one block -/

theorem le_satInc {w : Nat} (x : BitVec w) : x ≤ satInc x := by
  unfold satInc
  split
  · exact BitVec.le_refl x
  · rename_i h
    have hx : x.toNat ≠ 2 ^ w - 1 := fun hx => h (BitVec.eq_of_toNat_eq (by simpa using hx))
    have hlt := x.isLt
    have h1 : 1 % 2 ^ w ≤ 1 := Nat.mod_le _ _
    show x.toNat ≤ (x + 1#w).toNat
    rw [BitVec.toNat_add, BitVec.toNat_ofNat, Nat.mod_eq_of_lt (by omega)]
    omega

/-- A change outside the blocks that `Kept` speaks of. -/
theorem Kept.of_same {s t : State} (line : t.line = s.line) (slot : t.slot = s.slot) (ctl : t.ctl = s.ctl)
    (pub : t.pub = s.pub) (late : t.req.lateAnswers = s.req.lateAnswers) (args : t.host.args = s.host.args)
    (running : t.host.running = s.host.running) (resetting : t.host.resetting = s.host.resetting)
    (pending : t.pending = s.pending) (trig : t.trig = s.trig) (peers : t.peers.length = s.peers.length) (image : t.image.length = s.image.length)
    (collector : s.CollectorLaw → t.CollectorLaw) : Kept s t where
  config := by rw [ctl]
  records := by rw [slot]
  peers := peers
  image := image
  points := by rw [pub]
  args := args
  running := running
  resetting := resetting
  pending := pending
  trig := trig
  off h := by rw [ctl, h]
  counter _ h := by rw [slot]; exact h
  offCounter h ht := by rw [slot]; exact h (ctl ▸ ht)
  counts := by
    unfold CountsUp
    rw [line, slot, pub, late]
    exact CountsUp.refl s
  collector := collector
  hold := by rw [line]
  noFrame _ h := by rw [line, h]
  waits _ h := by rw [line, h]

theorem Kept.of_units {s t : State} (h : t.outsideUnits = s.outsideUnits) (hc : s.CollectorLaw → t.CollectorLaw) : Kept s t :=
  .of_same (congrArg State.line h :) (congrArg State.slot h :) (congrArg State.ctl h :) (congrArg State.pub h :)
    (congrArg (·.req.lateAnswers) h :) (congrArg (·.host.args) h :) (congrArg (·.host.running) h :)
    (congrArg (·.host.resetting) h :) (congrArg State.pending h :) (congrArg State.trig h :)
    (congrArg (·.peers.length) h :) (congrArg (·.image.length) h :) hc

/-! ### The snapshot units -/

@[simp] theorem unit_modUnit_same (u : UnitId) (f : SnapshotUnit → SnapshotUnit) (s : State) :
    (s.modUnit u f).unit u = f (s.unit u) := by cases u <;> rfl

@[simp] theorem unit_modUnit_other (u : UnitId) (f : SnapshotUnit → SnapshotUnit) (s : State) :
    (s.modUnit u f).unit u.other = s.unit u.other := by cases u <;> rfl

@[simp] theorem unit_modUnit_of_other (u : UnitId) (f : SnapshotUnit → SnapshotUnit) (s : State) :
    (s.modUnit u.other f).unit u = s.unit u := by cases u <;> rfl

@[simp] theorem unit_raise (u : UnitId) (k : EventKind) (c n d : Nat) (v : Word) (s : State) :
    (raise k c n d v s).unit u = s.unit u := by cases u <;> rfl

@[simp] theorem UnitId.other_other (u : UnitId) : u.other.other = u := by cases u <;> rfl

/-- The states of two units that R152 lets stand beside each other. -/
def UnitState.fits (x y : UnitState) : Prop :=
  ¬(x = .collecting ∧ y = .collecting) ∧ (x = .pending → y = .collecting) ∧ (y = .pending → x = .collecting)

theorem collectorLaw_iff (u : UnitId) (s : State) : s.CollectorLaw ↔ (s.unit u).state.fits (s.unit u.other).state := by
  cases u with
  | a => exact Iff.rfl
  | b =>
    simp only [State.CollectorLaw, UnitState.fits, State.unit, UnitId.other]
    tauto

/-- A change of a unit that leaves its state. -/
theorem modUnit_collector {u : UnitId} {f : SnapshotUnit → SnapshotUnit} {s : State} (h : (f (s.unit u)).state = (s.unit u).state)
    (hs : s.CollectorLaw) : (s.modUnit u f).CollectorLaw := by
  rw [collectorLaw_iff u] at hs ⊢
  simpa [h] using hs

@[simp] theorem startCollection_state (u : UnitId) (s : State) : ((startCollection u s).unit u).state = .collecting := by
  simp [startCollection]

@[simp] theorem startCollection_other (u : UnitId) (s : State) : (startCollection u s).unit u.other = s.unit u.other := by
  simp [startCollection]

theorem closeCollection_state (u : UnitId) (s : State) :
    ((closeCollection u s).unit u).state = if (s.unit u).oneShot then .spent else .armed := by
  simp [closeCollection, raiseSnapshot]

@[simp] theorem closeCollection_other (u : UnitId) (s : State) : (closeCollection u s).unit u.other = s.unit u.other := by
  simp [closeCollection, raiseSnapshot]

/-- A collection that has ended leaves its unit SPENT or ARMED. -/
theorem closeCollection_ended (u : UnitId) (s : State) :
    ((closeCollection u s).unit u).state = .spent ∨ ((closeCollection u s).unit u).state = .armed := by
  rw [closeCollection_state]
  split <;> simp

/-- A collection that ends hands the collector to a PENDING unit at once (R152). -/
theorem endCollection_collector {u : UnitId} {s : State} (h : (s.unit u).state = .collecting) (hs : s.CollectorLaw) :
    (endCollection u s).CollectorLaw := by
  obtain ⟨hboth, -, -⟩ := (collectorLaw_iff u s).mp hs
  have hother : (s.unit u.other).state ≠ .collecting := fun ho => hboth ⟨h, ho⟩
  have hended := closeCollection_ended u s
  simp only [endCollection, closeCollection_other]
  split
  · set t := closeCollection u s
    have hsecond := closeCollection_ended u.other (startCollection u.other t)
    have hu : ((startCollection u.other t).unit u) = t.unit u := by simpa using startCollection_other u.other t
    have hv : ((closeCollection u.other (startCollection u.other t)).unit u) = t.unit u := by
      simpa [hu] using closeCollection_other u.other (startCollection u.other t)
    split
    · rw [collectorLaw_iff u, hv]
      rcases hended with h1 | h1 <;> rcases hsecond with h2 | h2 <;> simp [UnitState.fits, h1, h2]
    · rw [collectorLaw_iff u, hu, startCollection_state]
      rcases hended with h1 | h1 <;> simp [UnitState.fits, h1]
  · rename_i hp
    rw [collectorLaw_iff u, closeCollection_other]
    rcases hended with h1 | h1 <;> simp [UnitState.fits, h1, hp]

theorem judgeEnd_collector (u : UnitId) {s : State} (hs : s.CollectorLaw) : (judgeEnd u s).CollectorLaw := by
  unfold judgeEnd
  split
  · rename_i h
    exact endCollection_collector h.1 hs
  · exact hs

/-- A trigger leaves one collection at most, and a unit PENDING only while the other collects (R151, R152). -/
theorem actTrigger_collector (u : UnitId) {s : State} (hs : s.CollectorLaw) : (actTrigger u s).CollectorLaw := by
  have dropped : (dropTrigger u s).CollectorLaw := modUnit_collector rfl hs
  have hfit := (collectorLaw_iff u s).mp hs
  unfold actTrigger
  split
  case h_3 harmed =>
    split
    · rename_i hother
      split
      · rw [collectorLaw_iff u]
        simp [UnitState.fits, hother]
      · exact dropped
    · rename_i hother
      rw [collectorLaw_iff u]
      have : (s.unit u.other).state ≠ .pending := fun hp => by simpa [harmed] using hfit.2.2 hp
      simp [UnitState.fits, hother, this]
  all_goals first | exact hs | exact dropped

theorem answerCalls_collector (n : Nat) {s : State} (hs : s.CollectorLaw) : (answerCalls n s).CollectorLaw := by
  induction n generalizing s with
  | zero => exact hs
  | succ n ih => exact ih (judgeEnd_collector .b (actTrigger_collector .b hs))

theorem answerCall_collector {s : State} (hs : s.CollectorLaw) : (answerCall s).CollectorLaw :=
  answerCalls_collector _ (s := { s with called := 0 }) hs

theorem takeCall_collector {s : State} (hs : s.CollectorLaw) : (takeCall s).CollectorLaw := answerCall_collector hs

theorem triggerA_collector {s : State} (hs : s.CollectorLaw) : (triggerA s).CollectorLaw :=
  answerCall_collector (actTrigger_collector .a (s := { s with began := s.began || s.beginsA }) hs)

theorem triggerB_collector {s : State} (hs : s.CollectorLaw) : (triggerB s).CollectorLaw := by
  unfold triggerB
  split
  · exact hs
  · split
    · exact hs
    · split
      · exact modUnit_collector rfl hs
      · exact actTrigger_collector .b hs

theorem giveTriggers_collector (a b : Bool) {s : State} (hs : s.CollectorLaw) : (giveTriggers a b s).CollectorLaw := by
  have hA : (if a then triggerA s else s).CollectorLaw := by
    split
    · exact triggerA_collector hs
    · exact hs
  have hB : (if b then triggerB (if a then triggerA s else s) else if a then triggerA s else s).CollectorLaw := by
    split
    · exact triggerB_collector hA
    · exact hA
  simp only [giveTriggers]
  cases a <;> cases b <;> simp only [if_true, Bool.false_eq_true, if_false] at hB ⊢
  · exact hB
  · exact judgeEnd_collector .b hB
  · exact judgeEnd_collector .a hB
  · exact judgeEnd_collector .b (judgeEnd_collector .a hB)

theorem captureValue_collector (i : Nat) (v : Word) {s : State} (hs : s.CollectorLaw) : (captureValue i v s).CollectorLaw := by
  unfold captureValue
  split
  · exact hs
  · split
    · exact hs
    · exact judgeEnd_collector _ (modUnit_collector rfl hs)

theorem missEntry_collector (i : Nat) {s : State} (hs : s.CollectorLaw) : (missEntry i s).CollectorLaw := by
  unfold missEntry
  split
  · exact hs
  · exact judgeEnd_collector _ (modUnit_collector rfl hs)

theorem collecting?_state {s : State} {u : UnitId} (h : s.collecting? = some u) : (s.unit u).state = .collecting := by
  unfold State.collecting? at h
  split at h
  · cases h
    assumption
  · split at h
    · cases h
      assumption
    · cases h

/-- Where neither unit is left PENDING, one collection at most is all that the law asks for. -/
theorem collectorLaw_of_disarm {f : SnapshotUnit → SnapshotUnit} {s : State} (hp : ∀ x, (f x).state ≠ .pending)
    (hc : ∀ x, (f x).state = .collecting → x.state = .collecting)
    (hs : ¬(s.unitA.state = .collecting ∧ s.unitB.state = .collecting)) :
    ((s.modUnit .a f).modUnit .b f).CollectorLaw :=
  ⟨fun h => hs ⟨hc _ h.1, hc _ h.2⟩, fun h => absurd h (hp _), fun h => absurd h (hp _)⟩

/-- On entering OFF the collection in course ends and no unit is PENDING (R162). -/
theorem collectorOff_collector {s : State} (hs : s.CollectorLaw) : (collectorOff s).CollectorLaw := by
  have hs := (takeCall_collector hs).1
  simp only [collectorOff]
  generalize takeCall s = s at hs ⊢
  refine collectorLaw_of_disarm (fun x => ?_) (fun x => ?_) ?_
  · split <;> simp_all
  · split <;> simp
  · split
    · exact hs
    · rename_i u _
      cases u <;> simp [raiseSnapshot]

theorem takeUnitDeadline_collector (u : UnitId) {s : State} (hs : s.CollectorLaw) : (takeUnitDeadline u s).CollectorLaw := by
  simp only [takeUnitDeadline]
  split
  · split
    · rename_i h
      refine endCollection_collector ?_ (modUnit_collector ?_ (modUnit_collector ?_ hs))
      · simpa using h.1
      · rfl
      · rfl
    · exact modUnit_collector rfl hs
  · exact hs

theorem takeDeadline_collector {s : State} (hs : s.CollectorLaw) : (takeDeadline s).CollectorLaw :=
  takeUnitDeadline_collector .b (takeUnitDeadline_collector .a hs)

theorem countPeriod_state (x : SnapshotUnit) : x.countPeriod.1.state = x.state := by
  unfold SnapshotUnit.countPeriod
  split
  · split <;> rfl
  all_goals rfl

theorem takePeriods_collector {s : State} (hs : s.CollectorLaw) : (takePeriods s).CollectorLaw := by
  simp only [takePeriods]
  split
  · exact giveTriggers_collector _ _
      (modUnit_collector (countPeriod_state s.unitB) (modUnit_collector (u := .a) (countPeriod_state s.unitA) hs))
  · exact hs

theorem markDeadlines_collector {s : State} (hs : s.CollectorLaw) : (markDeadlines s).CollectorLaw :=
  modUnit_collector rfl (modUnit_collector rfl hs)

theorem pastBeginning_collector {s : State} (hs : s.CollectorLaw) : (pastBeginning s).CollectorLaw :=
  modUnit_collector rfl (modUnit_collector rfl hs)

end Sys2Proof.Machine

namespace Sys2Proof.Machine

/-! ### Elementary changes -/

theorem raise_kept (k : EventKind) (c n d : Nat) (v : Word) (s : State) : Kept s (raise k c n d v s) :=
  .of_same rfl rfl rfl rfl rfl rfl rfl rfl rfl rfl rfl rfl id

theorem modEntry_kept (i : Nat) (f : ImageEntry → ImageEntry) (s : State) : Kept s (s.modEntry i f) :=
  .of_same rfl rfl rfl rfl rfl rfl rfl rfl rfl rfl rfl (by simp) id

theorem modPeer_kept (n : Nat) (f : PeerRecord → PeerRecord) (s : State) : Kept s (s.modPeer n f) := by
  unfold State.modPeer
  split
  · exact .refl s
  · exact .of_same rfl rfl rfl rfl rfl rfl rfl rfl rfl rfl (by simp) rfl id

theorem modList_kept (f : List RequestRecord → List RequestRecord) (s : State) : Kept s (s.modList f) :=
  .of_same rfl rfl rfl rfl rfl rfl rfl rfl rfl rfl rfl rfl id

theorem modDue_kept (f : Due → Due) (s : State) : Kept s (s.modDue f) :=
  .of_same rfl rfl rfl rfl rfl rfl rfl rfl rfl rfl rfl rfl id

theorem modUnit_kept {u : UnitId} {f : SnapshotUnit → SnapshotUnit} {s : State} (h : (f (s.unit u)).state = (s.unit u).state) :
    Kept s (s.modUnit u f) := .of_units (modUnit_outsideUnits u f s) (modUnit_collector h)

/-- A change of the slot unit that leaves the counter and the map's size. -/
theorem modSlot_kept {f : SlotUnit → SlotUnit} {s : State} (hmap : (f s.slot).map.length = s.slot.map.length)
    (hcounter : (f s.slot).counter = s.slot.counter) (hstep : s.slot.outOfStep ≤ (f s.slot).outOfStep) :
    Kept s (s.modSlot f) :=
  { Kept.of_same (s := s) (t := s) rfl rfl rfl rfl rfl rfl rfl rfl rfl rfl rfl rfl id with
    records := hmap
    counter := fun _ h => by rw [modSlot_slot, hcounter]; exact h
    offCounter := fun h ht => by rw [modSlot_slot, hcounter]; exact h ht
    counts := ⟨.refl _, hstep, BitVec.le_refl _, BitVec.le_refl _, BitVec.le_refl _, BitVec.le_refl _⟩ }

theorem modSlotAt_kept (k : Nat) (f : SlotRecord → SlotRecord) (s : State) : Kept s (s.modSlotAt k f) :=
  modSlot_kept (by simp) rfl (BitVec.le_refl _)

/-- A change of station control between states that are both OFF or both not. -/
theorem modCtl_kept {f : StationControl → StationControl} {s : State} (hconf : (f s.ctl).config = s.ctl.config)
    (hoff : (f s.ctl).state = .off ↔ s.ctl.state = .off) : Kept s (s.modCtl f) :=
  { Kept.of_same (s := s) (t := s) rfl rfl rfl rfl rfl rfl rfl rfl rfl rfl rfl rfl id with
    config := hconf
    off := hoff.mpr
    offCounter := fun h ht => h (hoff.mp ht)
    counts := .refl s }

/-- A change of the publication unit that leaves the descriptors. -/
theorem modPub_kept {f : Publication → Publication} {s : State}
    (hpoints : (f s.pub).catalogue.map (·.descriptor) = s.pub.catalogue.map (·.descriptor))
    (hdropped : s.pub.dropped ≤ (f s.pub).dropped) (hserved : s.pub.notServed ≤ (f s.pub).notServed)
    (hignored : s.pub.broadcastIgnored ≤ (f s.pub).broadcastIgnored) : Kept s (s.modPub f) :=
  { Kept.of_same (s := s) (t := s) rfl rfl rfl rfl rfl rfl rfl rfl rfl rfl rfl rfl id with
    points := hpoints
    counts := ⟨.refl _, BitVec.le_refl _, hdropped, hserved, hignored, BitVec.le_refl _⟩ }

/-- A change of the line unit that lowers no counter. -/
theorem modLine_steady {f : LineUnit → LineUnit} {s : State} (h : s.line.CountsUp (f s.line)) : Steady s (s.modLine f) :=
  { Steady.refl s with
    counts := ⟨h, BitVec.le_refl _, BitVec.le_refl _, BitVec.le_refl _, BitVec.le_refl _, BitVec.le_refl _⟩ }

/-- A change of the line unit that leaves the hold, and in a hold brings back neither a frame nor an arrival. -/
theorem modLine_kept {f : LineUnit → LineUnit} {s : State} (h : s.line.CountsUp (f s.line)) (hhold : (f s.line).hold = s.line.hold)
    (htx : s.line.hold = true → s.line.tx = none → (f s.line).tx = none)
    (hwait : s.line.hold = true → s.line.receiver = .waiting → (f s.line).receiver = .waiting) : Kept s (s.modLine f) :=
  ⟨modLine_steady h, hhold, htx, hwait⟩

/-- A fold of actions that are kept. -/
theorem foldl_kept {α : Type} {act : State → α → State} (h : ∀ s a, Kept s (act s a)) (l : List α) (s : State) :
    Kept s (l.foldl act s) := by
  induction l generalizing s with
  | nil => exact .refl s
  | cons a l ih => exact (h s a).trans (ih _)

/-- An action on condition. -/
theorem ite_kept_of {p : Prop} [Decidable p] {s t : State} (h : p → Kept s t) : Kept s (if p then t else s) := by
  split
  · exact h ‹p›
  · exact .refl s

theorem ite_kept {p : Prop} [Decidable p] {s t : State} (h : Kept s t) : Kept s (if p then t else s) :=
  ite_kept_of fun _ => h

theorem ite_kept' {p : Prop} [Decidable p] {s t : State} (h : Kept s t) : Kept s (if p then s else t) := by
  split
  · exact .refl s
  · exact h

/-! ### The collector -/

theorem giveTriggers_kept (a b : Bool) (s : State) : Kept s (giveTriggers a b s) :=
  .of_units (giveTriggers_outsideUnits a b s) (giveTriggers_collector a b)

theorem takeCall_kept (s : State) : Kept s (takeCall s) := .of_units (takeCall_outsideUnits s) takeCall_collector

theorem captureValue_kept (i : Nat) (v : Word) (s : State) : Kept s (captureValue i v s) :=
  .of_units (captureValue_outsideUnits i v s) (captureValue_collector i v)

theorem missEntry_kept (i : Nat) (s : State) : Kept s (missEntry i s) :=
  .of_units (missEntry_outsideUnits i s) (missEntry_collector i)

theorem collectorOff_kept (s : State) : Kept s (collectorOff s) :=
  .of_units (collectorOff_outsideUnits s) collectorOff_collector

theorem takeDeadline_kept (s : State) : Kept s (takeDeadline s) :=
  .of_units (takeDeadline_outsideUnits s) takeDeadline_collector

theorem pastBeginning_kept (s : State) : Kept s (pastBeginning s) :=
  .of_units (pastBeginning_outsideUnits s) pastBeginning_collector

theorem markDeadlines_kept (s : State) : Kept s (markDeadlines s) :=
  .of_units (by simp [markDeadlines]) markDeadlines_collector

theorem takePeriods_kept (s : State) : Kept s (takePeriods s) := by
  simp only [takePeriods]
  split
  · exact (modDue_kept _ s).trans <| (modUnit_kept (u := .a) (countPeriod_state s.unitA)).trans <|
      (modUnit_kept (u := .b) (countPeriod_state s.unitB)).trans (giveTriggers_kept _ _ _)
  · exact .refl s

/-! ### The image unit -/

theorem evaluateWatch_kept (i : Nat) (f : Format) (s : State) : Kept s (evaluateWatch i f s) := by
  unfold evaluateWatch
  split
  · exact .refl s
  · refine (modEntry_kept i _ s).trans (ite_kept ?_)
    exact (raise_kept ..).trans (giveTriggers_kept ..)

theorem reportBoth_kept {f g : State → State} (hf : ∀ s, Kept s (f s)) (hg : ∀ s, Kept s (g s)) (i : Nat) (s : State) :
    Kept s (reportBoth i f g s) := by
  unfold reportBoth
  split
  · exact (hf s).trans (hg _)
  · exact (hg s).trans (hf _)

theorem passEntry_kept (i : Nat) (st : EntryState) (c : Option Nat) (s : State) : Kept s (passEntry i st c s) := by
  simp only [passEntry]
  refine (modEntry_kept i (·.pass st) s).trans (.trans ?_ (reportBoth_kept (fun s => ?_) (fun s => ?_) i _))
  · cases c with
    | none => exact .refl _
    | some code => exact raise_kept ..
  · split
    · exact ite_kept (evaluateWatch_kept ..)
    · exact .refl s
  · exact ite_kept (missEntry_kept i s)

/-- A reaction of the image unit, entry by entry. -/
theorem forEntries_kept {p : ImageEntry → Bool} {act : Nat → State → State} (h : ∀ i s, Kept s (act i s)) (s : State) :
    Kept s (forEntries p act s) := foldl_kept (fun _ i => ite_kept (h i _)) _ s

theorem resolveEntry_kept (i : Nat) (s : State) : Kept s (resolveEntry i s) := by
  refine ite_kept ?_
  split
  · exact passEntry_kept ..
  · split
    · exact passEntry_kept ..
    · split
      · exact modEntry_kept ..
      · exact passEntry_kept ..

theorem imageKnown_kept (n : Nat) (s : State) : Kept s (imageKnown n s) := forEntries_kept resolveEntry_kept s

theorem imageFailed_kept (n : Nat) (s : State) : Kept s (imageFailed n s) := forEntries_kept (passEntry_kept · _ _) s

theorem imageRetried_kept (n : Nat) (s : State) : Kept s (imageRetried n s) :=
  forEntries_kept (fun i s => (passEntry_kept i _ _ s).trans (resolveEntry_kept i _)) s

theorem imageAbsent_kept (n : Nat) (s : State) : Kept s (imageAbsent n s) := forEntries_kept (passEntry_kept · _ _) s

theorem imagePresent_kept (n : Nat) (s : State) : Kept s (imagePresent n s) :=
  forEntries_kept (fun i _ => (ite_kept (passEntry_kept i _ _ _)).trans (resolveEntry_kept i _)) s

theorem imageCleared_kept (n : Nat) (s : State) : Kept s (imageCleared n s) := forEntries_kept (passEntry_kept · _ _) s

theorem takeValue_kept (i : Nat) (v : Word) (f : Format) (s : State) : Kept s (takeValue i v f s) := by
  simp only [takeValue]
  refine .trans ?_ (reportBoth_kept (evaluateWatch_kept i f) (captureValue_kept i v) i _)
  exact (modEntry_kept i _ s).trans (ite_kept' (raise_kept ..))

theorem valueArrival_kept (f : Frame) (i : Nat) (s : State) : Kept s (valueArrival f i s) := by
  unfold valueArrival
  split
  · exact ite_kept' (passEntry_kept ..)
  · split
    · exact takeValue_kept ..
    · exact .refl s

theorem imageArrival_kept (f : Frame) (v : Verdict) (s : State) : Kept s (imageArrival f v s) :=
  ite_kept (forEntries_kept (valueArrival_kept f) s)

theorem takeAges_kept (s : State) : Kept s (takeAges s) := by
  refine ite_kept ((modDue_kept _ s).trans (ite_kept' (forEntries_kept (fun i s => ?_) _)))
  exact (modEntry_kept i _ s).trans (ite_kept (passEntry_kept ..))

theorem imageOff_kept (s : State) : Kept s (imageOff s) := by
  have h : ∀ s i, Kept s (entryOff s i) := fun s i => ite_kept' (passEntry_kept ..)
  exact (foldl_kept h _ s).trans ((collectorOff_kept _).trans (foldl_kept h _ _))

/-! ### The request list -/

/-- A change of the request list and the events waiting. -/
theorem Kept.of_requests {s t : State} (h : t.outsideRequests = s.outsideRequests) : Kept s t := by
  have ha : t.unitA = s.unitA := (congrArg State.unitA h :)
  have hb : t.unitB = s.unitB := (congrArg State.unitB h :)
  refine .of_same (congrArg State.line h :) (congrArg State.slot h :) (congrArg State.ctl h :) (congrArg State.pub h :)
    (congrArg (·.req.lateAnswers) h :) (congrArg (·.host.args) h :) (congrArg (·.host.running) h :)
    (congrArg (·.host.resetting) h :) (congrArg State.pending h :) (congrArg State.trig h :)
    (congrArg (·.peers.length) h :) (congrArg (·.image.length) h :) ?_
  unfold State.CollectorLaw
  rw [ha, hb]
  exact id

theorem endRecord_kept (id : Nat) (o : RequestOutcome) (c : Content) (s : State) : Kept s (endRecord id o c s) :=
  .of_requests (endRecord_outsideRequests id o c s)

theorem removeRecord_kept (id : Nat) (s : State) : Kept s (removeRecord id s) := modList_kept _ s

theorem modRecord_kept (id : Nat) (f : RequestRecord → RequestRecord) (s : State) : Kept s (s.modRecord id f) := modList_kept _ s

theorem requestSent_kept (id : Nat) (s : State) : Kept s (requestSent id s) := .of_requests (requestSent_outsideRequests id s)

theorem requestsAbsent_kept (n : Nat) (s : State) : Kept s (requestsAbsent n s) :=
  .of_requests (requestsAbsent_outsideRequests n s)

theorem requestsOff_kept (s : State) : Kept s (requestsOff s) := .of_requests (requestsOff_outsideRequests s)

theorem enterRecord_kept (o : Origin) (g : Nat) (k : RequestKind) (i : Nat) (v : Option Word) (p : Option Nat) (c : Bool)
    (s : State) : Kept s (enterRecord o g k i v p c s) :=
  .of_same rfl rfl rfl rfl rfl rfl rfl rfl rfl rfl rfl rfl id

/-- A late answer is counted (R140). -/
theorem countLate_kept (s : State) : Kept s (s.modReq fun u => { u with lateAnswers := satInc u.lateAnswers }) :=
  { Kept.of_same (s := s) (t := s) rfl rfl rfl rfl rfl rfl rfl rfl rfl rfl rfl rfl id with
    counts := ⟨.refl _, BitVec.le_refl _, BitVec.le_refl _, BitVec.le_refl _, BitVec.le_refl _, le_satInc _⟩ }

theorem answerArrival_kept (n : Nat) (a : AnswerSection) (s : State) : Kept s (answerArrival n a s) := by
  refine ite_kept ?_
  split
  · split
    · exact endRecord_kept ..
    · exact removeRecord_kept ..
  · exact countLate_kept s

/-! ### The peer table -/

theorem overOwn_kept {f : State → State} {s : State} (n : Nat) (h : Kept s (f s)) : Kept s (overOwn n f s) := ite_kept' h

theorem setFault_kept (n : Nat) (name : FaultName) (s : State) : Kept s (setFault n name s) :=
  overOwn_kept n (ite_kept' ((modPeer_kept ..).trans (raise_kept ..)))

theorem becomeAbsent_kept (n : Nat) (s : State) : Kept s (becomeAbsent n s) :=
  (modPeer_kept n _ s).trans <| (raise_kept ..).trans <| (modList_kept ..).trans <|
    (imageAbsent_kept n _).trans (requestsAbsent_kept n _)

theorem becomePresent_kept (n : Nat) (s : State) : Kept s (becomePresent n s) :=
  (modPeer_kept n _ s).trans <| (raise_kept ..).trans <| (ite_kept (imageRetried_kept n _)).trans (imagePresent_kept n _)

theorem loseSlot_kept (n : Nat) (s : State) : Kept s (loseSlot n s) :=
  overOwn_kept n ((modPeer_kept n _ s).trans (ite_kept (becomeAbsent_kept n _)))

theorem gainSlot_kept (n : Nat) (s : State) : Kept s (gainSlot n s) :=
  overOwn_kept n ((modPeer_kept n _ s).trans (ite_kept (becomePresent_kept n _)))

theorem changeOwner_kept (before after : Option Nat) (s : State) : Kept s (changeOwner before after s) := by
  refine ite_kept' ?_
  cases before with
  | none =>
    cases after with
    | none => exact .refl s
    | some m => exact gainSlot_kept m s
  | some n =>
    cases after with
    | none => exact loseSlot_kept n s
    | some m => exact (loseSlot_kept n s).trans (gainSlot_kept m _)

theorem takeSequence_kept (n : Nat) (q : Byte) (s : State) : Kept s (takeSequence n q s) := modPeer_kept ..

theorem takeCondition_kept (n : Nat) (c : Cond) (s : State) : Kept s (takeCondition n c s) :=
  overOwn_kept n (ite_kept' ((modPeer_kept ..).trans (raise_kept ..)))

theorem becomeKnown_kept (n c : Nat) (s : State) : Kept s (becomeKnown n c s) :=
  (modPeer_kept n _ s).trans <| (raise_kept ..).trans (imageKnown_kept n _)

theorem learnStore_kept (n : Nat) (a : AnswerSection) (s : State) : Kept s (learnStore n a s) := by
  refine (modPeer_kept n (·.store a) s).trans ?_
  simp only [learnStore]
  split
  · exact becomeKnown_kept ..
  · exact .refl _

theorem learnFetching_kept (n : Nat) (a : AnswerSection) (s : State) : Kept s (learnFetching n a s) := by
  unfold learnFetching
  split
  · exact (modPeer_kept n _ s).trans <| (setFault_kept ..).trans <| (imageCleared_kept n _).trans (learnStore_kept n a _)
  · exact learnStore_kept n a s

theorem settleDiscovery_kept (n : Nat) (own : Option Nat) (s : State) : Kept s (settleDiscovery n own s) := by
  unfold settleDiscovery
  split
  · exact .refl s
  · exact ite_kept (removeRecord_kept ..)

theorem learnAnswer_kept (n : Nat) (a : AnswerSection) (own : Option Nat) (s : State) : Kept s (learnAnswer n a own s) := by
  have h : ∀ s, Kept s (settleDiscovery n own (learnFetching n a s)) := fun s =>
    (learnFetching_kept n a s).trans (settleDiscovery_kept ..)
  refine overOwn_kept n ?_
  split
  · exact .refl s
  · exact h s
  · exact (modPeer_kept ..).trans (h _)
  · exact (modPeer_kept ..).trans <| (imageRetried_kept n _).trans (h _)

theorem giveDiscovery_kept (s : State) : Kept s (giveDiscovery s) := by
  refine ite_kept ?_
  split
  · unfold enterDiscovery
    split
    · exact .refl s
    · exact (modPeer_kept ..).trans (enterRecord_kept ..)
  · exact .refl s

theorem giveAllDiscovery_kept (s : State) : Kept s (giveAllDiscovery s) :=
  (giveDiscovery_kept s).trans <| (giveDiscovery_kept _).trans <| (giveDiscovery_kept _).trans (giveDiscovery_kept _)

theorem discoveryNoAnswer_kept (r : RequestRecord) (s : State) : Kept s (discoveryNoAnswer r s) :=
  (removeRecord_kept r.id s).trans
    (ite_kept ((modPeer_kept ..).trans <| (raise_kept ..).trans (imageFailed_kept ..)))

theorem waitRecord_kept (s : State) (id : Nat) : Kept s (waitRecord discoveryNoAnswer s id) := by
  unfold waitRecord
  split
  · exact .refl s
  · refine ite_kept ((modRecord_kept ..).trans (ite_kept' ?_))
    split
    · exact modRecord_kept ..
    · split
      · exact endRecord_kept ..
      · exact discoveryNoAnswer_kept ..

theorem takeWaits_kept (s : State) : Kept s (takeWaits s) :=
  ite_kept ((modDue_kept _ s).trans (ite_kept' (foldl_kept waitRecord_kept _ _)))

theorem checkLayout_kept (n : Nat) (f : Frame) (s : State) : Kept s (checkLayout n f s) :=
  overOwn_kept n (ite_kept ((modPeer_kept ..).trans <| (setFault_kept ..).trans <| (raise_kept ..).trans (imageCleared_kept ..)))

theorem peerArrival_kept (f : Frame) (s : State) : Kept s (peerArrival f s) := by
  refine ite_kept' ?_
  have checked := (takeSequence_kept f.source f.sequence s).trans
    (ite_kept (p := f.kind = .slotFrame) ((takeCondition_kept f.source f.cond _).trans (checkLayout_kept f.source f _)))
  dsimp only
  split
  · exact checked.trans (ite_kept (learnAnswer_kept ..))
  · exact checked

theorem peerPlanMismatch_kept (n : Nat) (s : State) : Kept s (peerPlanMismatch n s) := ite_kept' (setFault_kept ..)

/-- The peer table takes its reset values on entering OFF (R78). -/
theorem peersOff_kept (s : State) : Kept s (peersOff s) :=
  .of_same rfl rfl rfl rfl rfl rfl rfl rfl rfl rfl (by simp [peersOff]) rfl id

/-! ### The slot map -/

theorem setSlotState_kept (k : Nat) (f : SlotRecord → SlotRecord) (s : State) : Kept s (setSlotState k f s) :=
  (modSlotAt_kept k f s).trans (changeOwner_kept ..)

theorem becomeHeard_kept (k n : Nat) (s : State) : Kept s (becomeHeard k n s) := setSlotState_kept ..

theorem becomeFree_kept (k : Nat) (s : State) : Kept s (becomeFree k s) := setSlotState_kept ..

theorem markActivity_kept (slot : Option Nat) (s : State) : Kept s (markActivity slot s) := by
  cases slot with
  | none => exact .refl s
  | some k => exact modSlotAt_kept ..

/-- An arrival out of step is counted (R25). -/
theorem countOutOfStep_kept (s : State) : Kept s (s.modSlot fun u => { u with outOfStep := satInc u.outOfStep }) :=
  modSlot_kept rfl rfl (le_satInc _)

theorem mapArrival_kept (f : Frame) (winner : Bool) (s : State) : Kept s (mapArrival f winner s) := by
  have taken : Kept s (if f.kind = .slotFrame ∧ f.cond.leaving then becomeFree f.slot s else becomeHeard f.slot f.source s) := by
    split
    · exact becomeFree_kept ..
    · exact becomeHeard_kept ..
  refine ite_kept' ?_
  split
  · exact taken
  · exact taken
  · exact ite_kept' (countOutOfStep_kept s)
  · exact ite_kept' (countOutOfStep_kept s)

theorem takeSilence_kept (s : State) : Kept s (takeSilence s) := by
  unfold takeSilence
  split
  · exact .refl s
  · exact (modDue_kept _ s).trans (ite_kept (becomeFree_kept ..))

theorem candidateSearch_kept (s : State) : Kept s (candidateSearch s) := by
  refine ite_kept ?_
  split
  · exact (modSlotAt_kept ..).trans (modSlot_kept rfl rfl (BitVec.le_refl _))
  · exact ite_kept' ((modSlot_kept rfl rfl (BitVec.le_refl _)).trans (raise_kept ..))

theorem holdClaims_kept (s : State) : Kept s (holdClaims s) :=
  foldl_kept (fun _ _ => (modSlotAt_kept ..).trans (raise_kept ..)) _ s

theorem freeClaims_kept (s : State) : Kept s (freeClaims s) := modSlot_kept (by simp) rfl (BitVec.le_refl _)

end Sys2Proof.Machine

namespace Sys2Proof.Machine

/-! ### Station control and entering OFF -/

theorem raiseStation_kept (code detail value : Nat) (s : State) : Kept s (raiseStation code detail value s) := raise_kept ..

/-- A passage between two states that are not OFF. -/
theorem passStation_kept {st : StationState} {s : State} (cause : Nat) (hst : st ≠ .off) (hs : s.ctl.state ≠ .off) :
    Kept s (passStation st cause s) :=
  (modCtl_kept (f := fun c => { c with state := st }) rfl (iff_of_false hst hs)).trans (raiseStation_kept ..)

theorem stationOff_kept (s : State) : Kept s (stationOff s) := modCtl_kept rfl Iff.rfl

theorem lineOff_kept (s : State) : Kept s (lineOff s) :=
  modLine_kept (.refl _) rfl (fun _ h => by simp [h]) fun _ => id

theorem answersOff_kept (s : State) : Kept s (answersOff s) :=
  modPub_kept rfl (BitVec.le_refl _) (BitVec.le_refl _) (BitVec.le_refl _)

theorem dueOff_kept (s : State) : Kept s (dueOff s) := modDue_kept _ s

theorem slotOff_kept (s : State) : Kept s (slotOff s) :=
  { modSlot_kept (s := s) (f := fun u => { u with map := u.map.map fun _ => SlotRecord.reset }) (by simp) rfl (BitVec.le_refl _) with
    counter := fun h0 _ => h0
    offCounter := fun _ _ => rfl }

theorem imageAndRequestsOff_kept (s : State) : Kept s (imageAndRequestsOff s) := by
  unfold imageAndRequestsOff
  split
  · exact (imageOff_kept s).trans (requestsOff_kept _)
  · exact (requestsOff_kept s).trans (imageOff_kept _)

/-- What is kept from the passage to OFF on is kept from before it, where the slot counter ends at 0. -/
theorem Kept.of_passOff {cause : Nat} {s t : State} (h : Kept (passStation .off cause s) t) (h0 : t.slot.counter = 0) :
    Kept s t where
  config := h.config
  records := h.records
  peers := h.peers
  image := h.image
  points := h.points
  args := h.args
  running := h.running
  resetting := h.resetting
  pending := h.pending
  trig := h.trig
  off _ := h.off rfl
  counter := h.counter
  offCounter _ _ := h0
  counts := h.counts
  collector := h.collector
  hold := h.hold
  noFrame := h.noFrame
  waits := h.waits

theorem enterOff_kept (cause : Nat) (s : State) : Kept s (enterOff cause s) := by
  refine (takePeriods_kept s).trans (Kept.of_passOff (cause := cause) ?_ rfl)
  exact (stationOff_kept _).trans <| (imageAndRequestsOff_kept _).trans <| (lineOff_kept _).trans <| (answersOff_kept _).trans <|
    (peersOff_kept _).trans <| (slotOff_kept _).trans (dueOff_kept _)

theorem enterLeaving_kept {s : State} (hs : s.ctl.state ≠ .off) : Kept s (enterLeaving s) :=
  (passStation_kept 5 (by decide) hs).trans <|
    (modCtl_kept (f := fun c => { c with leaving := 0, cond := { c.cond with leaving := true } }) rfl Iff.rfl).trans <|
      (freeClaims_kept _).trans (ite_kept (enterOff_kept 6 _))

theorem followOwned_kept (s : State) : Kept s (followOwned s) := by
  unfold followOwned
  split
  case h_1 h => exact ite_kept' (passStation_kept 3 (by decide) (by simp [h]))
  case h_2 h => exact ite_kept (passStation_kept 4 (by decide) (by simp [h]))
  case h_3 => exact ite_kept (enterOff_kept 6 s)
  all_goals exact .refl s

theorem feedTimer_kept (s : State) : Kept s (feedTimer s) :=
  ite_kept' <|
    (modCtl_kept (f := fun c => { c with hostLoss := 0, cond := { c.cond with hostLost := false } }) rfl Iff.rfl).trans
      (ite_kept (raiseStation_kept ..))

theorem takeListen_kept (s : State) : Kept s (takeListen s) := by
  refine ite_kept ((modDue_kept (fun d => { d with listen := false }) s).trans (ite_kept_of fun h => ?_))
  refine (modCtl_kept (f := fun c => { c with listening := c.listening + 1 }) rfl Iff.rfl).trans (ite_kept ?_)
  refine (passStation_kept (st := .claiming) 2 (by decide) ?_).trans (candidateSearch_kept _)
  show s.ctl.state ≠ .off
  rw [show s.ctl.state = .listening from h]
  decide

theorem takeLeaving_kept (s : State) : Kept s (takeLeaving s) :=
  ite_kept <| (modDue_kept _ s).trans <| ite_kept <|
    (modCtl_kept (f := fun c => { c with leaving := c.leaving + 1 }) rfl Iff.rfl).trans (ite_kept (enterOff_kept 7 _))

theorem takeHost_kept (s : State) : Kept s (takeHost s) :=
  ite_kept <| (modDue_kept _ s).trans <| ite_kept' <|
    (modCtl_kept (f := fun c => { c with hostLoss := c.hostLoss + 1 }) rfl Iff.rfl).trans <| ite_kept <|
      (modCtl_kept (f := fun c => { c with cond := { c.cond with hostLost := true } }) rfl Iff.rfl).trans (raiseStation_kept ..)

/-! ### The publication unit -/

theorem countDropped_kept (s : State) : Kept s (countDropped s) :=
  modPub_kept rfl (le_satInc _) (BitVec.le_refl _) (BitVec.le_refl _)

theorem countNotServed_kept (s : State) : Kept s (countNotServed s) :=
  modPub_kept rfl (BitVec.le_refl _) (le_satInc _) (BitVec.le_refl _)

theorem countBroadcastIgnored_kept (s : State) : Kept s (countBroadcastIgnored s) :=
  modPub_kept rfl (BitVec.le_refl _) (BitVec.le_refl _) (le_satInc _)

/-- A point's new value and writer leave its descriptor. -/
theorem modify_descriptors (c : List Point) (i : Nat) (v : Word) (n : Nat) :
    (c.modify i fun q => { q with value := v, writer := n }).map (·.descriptor) = c.map (·.descriptor) := by
  apply List.ext_getElem (by simp)
  intro j h1 h2
  simp only [List.getElem_map, List.getElem_modify]
  split <;> rfl

theorem applyWrite_kept (i n code : Nat) (v : Option Word) (s : State) : Kept s (applyWrite i n code v s) := by
  cases v with
  | none => exact .refl s
  | some v =>
    exact (modPub_kept (modify_descriptors _ i v n) (BitVec.le_refl _) (BitVec.le_refl _) (BitVec.le_refl _)).trans (raise_kept ..)

theorem setPointValue_kept (i : Nat) (v : Word) (s : State) : Kept s (setPointValue i v s) :=
  modPub_kept (modify_descriptors _ i v 0) (BitVec.le_refl _) (BitVec.le_refl _) (BitVec.le_refl _)

theorem enterAnswer_kept (n : Nat) (r : RequestSection) (o : AnswerOutcome) (c : Content) (s : State) :
    Kept s (enterAnswer n r o c s) :=
  (modPub_kept (f := fun p => { p with answers := p.answers ++ [⟨s.serial, n, r.tag, r.kind, r.index, o, c⟩] }) rfl
      (BitVec.le_refl _) (BitVec.le_refl _) (BitVec.le_refl _)).trans
    (.of_same rfl rfl rfl rfl rfl rfl rfl rfl rfl rfl rfl rfl id)

theorem serveRequest_kept (n : Nat) (r : RequestSection) (s : State) : Kept s (serveRequest n r s) := by
  unfold serveRequest
  split
  · exact (applyWrite_kept ..).trans (enterAnswer_kept ..)
  · exact enterAnswer_kept ..
  · exact enterAnswer_kept ..

theorem requestArrival_kept (n : Nat) (r : RequestSection) (s : State) : Kept s (requestArrival n r s) := by
  unfold requestArrival
  split
  · exact countBroadcastIgnored_kept s
  · split
    · split
      · exact applyWrite_kept ..
      · exact countNotServed_kept s
    · refine ite_kept ?_
      split
      · refine ite_kept' ?_
        split
        · exact countDropped_kept s
        · exact serveRequest_kept n r s
      · exact countNotServed_kept s

theorem answerSent_kept (id : Nat) (s : State) : Kept s (answerSent id s) :=
  modPub_kept rfl (BitVec.le_refl _) (BitVec.le_refl _) (BitVec.le_refl _)

/-! ### Frames and their reports -/

/-- In a medium hold nothing is assembled (R19). -/
theorem hold_of_assembled {k : Nat} {s : State} {t : Transmission} (h : assembled k s = some t) : s.line.hold = false := by
  unfold assembled at h
  split at h
  · cases h
  · exact Bool.eq_false_of_not_eq_true ‹_›

theorem takeStart_kept (s : State) : Kept s (takeStart s) := by
  refine ite_kept ((modDue_kept _ s).trans (ite_kept' ?_))
  split
  · rename_i t h
    exact modLine_kept (.refl _) rfl (fun hh => by rw [hold_of_assembled h] at hh; cases hh) fun _ => id
  · exact .refl _

theorem giveUpSlot_kept (t : Transmission) (winner : Option Nat) (s : State) : Kept s (giveUpSlot t winner s) := by
  cases winner with
  | none => exact (becomeFree_kept ..).trans (modSlotAt_kept ..)
  | some n => exact becomeHeard_kept ..

theorem reportClaim_kept (t : Transmission) (e : TxEnd) (clean : Nat) (s : State) : Kept s (reportClaim t e clean s) := by
  unfold reportClaim
  split
  · split
    · exact modSlotAt_kept ..
    · exact (modSlotAt_kept ..).trans <| (raise_kept ..).trans (followOwned_kept _)
  · exact (giveUpSlot_kept ..).trans (raise_kept ..)
  · exact .refl s

theorem reportOwned_kept (t : Transmission) (e : TxEnd) (clash : Nat) (s : State) : Kept s (reportOwned t e clash s) := by
  unfold reportOwned
  split
  · exact modSlotAt_kept ..
  · split
    · exact modSlotAt_kept ..
    · exact (giveUpSlot_kept ..).trans <| (raise_kept ..).trans (followOwned_kept _)
  · exact .refl s

theorem reportToSlots_kept (t : Transmission) (e : TxEnd) (s : State) : Kept s (reportToSlots t e s) := by
  unfold reportToSlots
  split
  · exact reportClaim_kept ..
  · split
    · exact (becomeFree_kept ..).trans (followOwned_kept _)
    · exact reportOwned_kept ..
    all_goals exact .refl s
  · exact .refl s

theorem reportToLists_kept (t : Transmission) (e : TxEnd) (s : State) : Kept s (reportToLists t e s) := by
  unfold reportToLists
  split
  · have h : Kept s (match t.answer with | some id => answerSent id s | none => s) := by
      split
      · exact answerSent_kept ..
      · exact .refl s
    dsimp only
    split
    · exact h.trans (requestSent_kept ..)
    · exact h
  all_goals exact .refl s

theorem reportEnd_kept (t : Transmission) (e : TxEnd) (s : State) : Kept s (reportEnd t e s) := by
  unfold reportEnd
  split
  · exact (reportToSlots_kept t e s).trans (reportToLists_kept ..)
  · exact (reportToLists_kept t e s).trans (reportToSlots_kept ..)

theorem loseTransmission_kept (t : Transmission) (s : State) : Kept s (loseTransmission t s) :=
  modLine_kept 
    ⟨BitVec.le_refl _, BitVec.le_refl _, BitVec.le_refl _, BitVec.le_refl _, le_satInc _, BitVec.le_refl _⟩ rfl (fun _ _ => rfl)
    fun _ h => by simp [h, Receiver.notOwn]

theorem abandonTransmission_kept (t : Transmission) (s : State) : Kept s (abandonTransmission t s) :=
  (modLine_kept (f := fun l => { l with tx := none }) (.refl _) rfl (fun _ _ => rfl) fun _ => id).trans (reportEnd_kept ..)

theorem beginTransmission_kept (t : Transmission) (s : State) : Kept s (beginTransmission t s) := by
  unfold beginTransmission
  split
  · exact abandonTransmission_kept ..
  · rename_i h
    split
    · exact loseTransmission_kept ..
    · exact modLine_kept (.refl _) rfl (fun hh => absurd hh h) fun _ => id

theorem takeSendPoint_kept (s : State) : Kept s (takeSendPoint s) := by
  unfold takeSendPoint
  split
  · exact ite_kept' (beginTransmission_kept ..)
  · exact .refl s

theorem takeSent_kept (s : State) : Kept s (takeSent s) := by
  unfold takeSent
  split
  · refine ite_kept (.trans ?_ (reportEnd_kept ..))
    exact modLine_kept (.refl _) rfl (fun _ _ => rfl) fun _ h => by simp [h, Receiver.markOwn]
  · exact .refl s

/-! ### Round boundaries and the moment -/

theorem takeReactions_kept (s : State) : Kept s (takeReactions s) :=
  (takeListen_kept s).trans <| (takeLeaving_kept _).trans <| (takeHost_kept _).trans <| (takeAges_kept _).trans <|
    (takeWaits_kept _).trans <| (takeDeadline_kept _).trans (takePeriods_kept _)

theorem countBoundary_kept (s : State) : Kept s (countBoundary s) :=
  (takeReactions_kept s).trans <| ite_kept' <|
    (modSlot_kept (f := fun u => { u with round := u.round + 1 }) rfl rfl (BitVec.le_refl _)).trans <|
      (candidateSearch_kept _).trans <| (modDue_kept _ _).trans (markDeadlines_kept _)

theorem takeSlotEnd_kept (s : State) : Kept s (takeSlotEnd s) :=
  (takeSilence_kept s).trans (ite_kept ((modDue_kept _ _).trans (countBoundary_kept _)))

theorem takeAllDue_kept (s : State) : Kept s (takeAllDue s) :=
  (takeSlotEnd_kept s).trans <| (takeReactions_kept _).trans (takeStart_kept _)

theorem takeMoment_kept (s : State) : Kept s (takeMoment s) := (takeAllDue_kept s).trans (takeCall_kept _)

/-- Events that enter the queue keep the host link's other fields. -/
theorem foldl_enterEvent_frame (es : List EventRecord) (h : HostLink) :
    (es.foldl enterEvent h).args = h.args ∧ (es.foldl enterEvent h).running = h.running
      ∧ (es.foldl enterEvent h).resetting = h.resetting := by
  induction es generalizing h with
  | nil => exact ⟨rfl, rfl, rfl⟩
  | cons e es ih =>
    obtain ⟨ha, hr, hp⟩ := ih (enterEvent h e)
    rw [List.foldl_cons, ha, hr, hp, enterEvent_frame]
    exact ⟨rfl, rfl, rfl⟩

theorem finish_kept (s : State) : Kept s (finish s) := by
  obtain ⟨es, hes, -⟩ := finish_takes s
  obtain ⟨ha, hr, hp⟩ := foldl_enterEvent_frame es s.host
  rw [finish_frame s]
  exact .of_same rfl rfl rfl rfl rfl (hes ▸ ha) (hes ▸ hr) (hes ▸ hp) rfl rfl rfl rfl id

theorem settle_kept (s : State) : Kept s (settle s) := ite_kept ((takeMoment_kept s).trans (finish_kept _))

theorem passMoment_kept (s : State) : Kept s (passMoment s) :=
  ite_kept ((takeMoment_kept s).trans <| (giveAllDiscovery_kept _).trans (finish_kept _))

theorem passSlot_kept (s : State) : Kept s (passSlot s) := by
  unfold passSlot
  split
  · exact .refl s
  · rename_i hs
    refine (modSlotAt_kept s.slot.counter SlotRecord.atEnd s).trans (.trans
      (modLine_kept (f := fun l => { l with lost := l.lost.map fun t =>
        if t.slot = s.slot.counter then { t with slotEnded := true } else t }) (.refl _) rfl (fun _ => id) fun _ => id)
      (.trans ?_ (modDue_kept _ _)))
    exact { modSlot_kept (f := fun u => { u with timer := 0 }) rfl rfl (BitVec.le_refl _) with
      counter := fun h0 _ => Nat.mod_lt _ h0
      offCounter := fun _ ht => absurd ht hs }

theorem adopt_kept {slot : Nat} {s : State} (bytes : Nat) (hslot : slot < s.ctl.config.slots) (hs : s.ctl.state ≠ .off) :
    Kept s (adopt slot bytes s) := by
  have aligned (timer : BitVec 10) : Kept s (s.modSlot fun u => { u with counter := slot, timer := timer }) :=
    { modSlot_kept (f := fun u => { u with timer := timer }) rfl rfl (BitVec.le_refl _) with
      counter := fun _ _ => hslot
      offCounter := fun _ ht => absurd ht hs }
  exact (aligned _).trans <| (modDue_kept _ _).trans (ite_kept (countBoundary_kept _))

/-! ### The end of an arrival -/

theorem reportLost_kept (cls : ArrivalClass) (frame : Option Frame) (waiting : List Transmission) (s : State) :
    Kept s (reportLost cls frame waiting s) := foldl_kept (fun _ _ => reportEnd_kept ..) _ s

theorem earlyReactions_kept (s : State) : Kept s (earlyReactions s) :=
  (ite_kept (takeListen_kept s)).trans <| (ite_kept (takeLeaving_kept _)).trans <| (ite_kept (takeHost_kept _)).trans <|
    (ite_kept (takeAges_kept _)).trans <| (ite_kept (takeWaits_kept _)).trans <| (ite_kept (takeDeadline_kept _)).trans
      (ite_kept (takePeriods_kept _))

end Sys2Proof.Machine

namespace Sys2Proof.Machine

/-- A GOOD frame names a slot of the plan (R9). -/
theorem slot_of_good {c : Configuration} {bytes : List Byte} {missing : Bool} {f : Frame}
    (h : classify c bytes missing = (.good, some f)) : f.slot < c.slots := by
  simp only [classify] at h
  split at h
  · cases h
  · split at h
    · cases h
    · split at h
      · cases h
      · split at h
        · cases h
        · split at h
          · cases h
          · cases h
            omega

theorem handArrival_kept {f : Frame} {s : State} (bytes : Nat) (waiting : List Transmission) (hslot : f.slot < s.ctl.config.slots) :
    Kept s (handArrival f bytes waiting s) := by
  have ha (s : State) : Kept s (match f.answer with | some a => answerArrival f.source a s | none => s) := by
    split
    · exact answerArrival_kept ..
    · exact .refl s
  have hr (s : State) : Kept s (match f.request with | some r => requestArrival f.source r s | none => s) := by
    split
    · exact requestArrival_kept ..
    · exact .refl s
  have hadopt (hs : adopts s = true) : Kept s (adopt f.slot bytes s) :=
    adopt_kept bytes hslot (by simp only [adopts, Bool.and_eq_true, bne_iff_ne] at hs; exact hs.1)
  simp only [handArrival]
  have early : Kept s (if adopts s = true ∧ s.order.adoptFirst = true then earlyReactions (adopt f.slot bytes s) else s) :=
    ite_kept_of fun h => (hadopt h.1).trans (earlyReactions_kept _)
  generalize (if adopts s = true ∧ s.order.adoptFirst = true then earlyReactions (adopt f.slot bytes s) else s) = s1 at early ⊢
  replace early := early.trans (peerArrival_kept f s1)
  generalize peerArrival f s1 = s2 at early ⊢
  have last {t : State} (h : Kept s t) :
      Kept s (if adopts s = true ∧ ¬s.order.adoptFirst = true ∧ t.ctl.state ≠ .off then adopt f.slot bytes t else t) :=
    h.trans (ite_kept_of fun hc => adopt_kept bytes (h.config ▸ hslot) hc.2.2)
  refine last ?_
  split
  · exact early.trans <| (mapArrival_kept ..).trans <| (reportLost_kept ..).trans <| (imageArrival_kept ..).trans <|
      (hr _).trans (ha _)
  · exact early.trans <| (ite_kept' (imageArrival_kept ..)).trans <| (ite_kept' (ha _)).trans <| (mapArrival_kept ..).trans <|
      (ite_kept (imageArrival_kept ..)).trans <| (ite_kept (ha _)).trans <| (hr _).trans (reportLost_kept ..)

/-- The bus counter of the arrival's class rises, and its LOST reports are taken up (R13, R21). -/
theorem countArrival_kept (cls : ArrivalClass) (s : State) : Kept s (s.modLine fun l => { countArrival cls l with lost := [] }) := by
  have up := le_satInc (w := 16)
  have same := BitVec.le_refl (n := 16)
  cases cls with
  | good => exact modLine_kept ⟨up _, same _, same _, same _, same _, same _⟩ rfl (fun _ => id) fun _ => id
  | badCrc => exact modLine_kept ⟨same _, up _, same _, same _, same _, same _⟩ rfl (fun _ => id) fun _ => id
  | format => exact modLine_kept ⟨same _, same _, up _, same _, same _, same _⟩ rfl (fun _ => id) fun _ => id
  | planMismatch => exact modLine_kept ⟨same _, same _, same _, up _, same _, same _⟩ rfl (fun _ => id) fun _ => id

theorem otherArrival_kept {cls : ArrivalClass} {frame : Option Frame} {s : State} (bytes : Nat)
    (hslot : ∀ f, cls = .good → frame = some f → f.slot < s.ctl.config.slots) : Kept s (otherArrival cls frame bytes s) := by
  have inside (b : Bool) (s : State) : Kept s { s with inArrival := b } :=
    .of_same rfl rfl rfl rfl rfl rfl rfl rfl rfl rfl rfl rfl id
  refine (countArrival_kept cls s).trans ?_
  simp only [otherArrival]
  split
  · rename_i f
    split
    · exact reportLost_kept ..
    · refine (inside true _).trans (.trans (handArrival_kept (f := f) bytes s.line.lost ?_) ?_)
      · exact hslot f rfl rfl
      · exact (modUnit_kept (u := .a) rfl).trans <| (modUnit_kept (u := .b) rfl).trans (inside false _)
  · exact (peerPlanMismatch_kept ..).trans (reportLost_kept ..)
  · exact reportLost_kept ..

theorem reportActivity_kept (slot : Option Nat) (s : State) : Kept s (reportActivity slot s) := ite_kept' (markActivity_kept ..)

/-- The receiver waits again. -/
theorem waitAgain_kept (s : State) : Kept s (s.modLine fun l => { l with receiver := .waiting }) :=
  modLine_kept (.refl _) rfl (fun _ => id) fun _ _ => rfl

theorem closeArrival_kept {cls : ArrivalClass} {frame : Option Frame} {s : State} (r : Reception)
    (hslot : ∀ f, cls = .good → frame = some f → f.slot < s.ctl.config.slots) : Kept s (closeArrival r cls frame s) := by
  have h := (waitAgain_kept s).trans (reportActivity_kept (arrivalSlot cls frame r.slot) _)
  exact h.trans (ite_kept' (otherArrival_kept _ fun f hc hf => h.config ▸ hslot f hc hf))

/-- An arrival that has ended leaves the receiver waiting, in a medium hold too. -/
theorem closeArrival_waits {cls : ArrivalClass} {frame : Option Frame} {s : State} (r : Reception) (hhold : s.line.hold = true)
    (hslot : ∀ f, cls = .good → frame = some f → f.slot < s.ctl.config.slots) :
    (closeArrival r cls frame s).line.receiver = .waiting := by
  have h := reportActivity_kept (arrivalSlot cls frame r.slot) (s.modLine fun l => { l with receiver := .waiting })
  refine Kept.waits (s := reportActivity (arrivalSlot cls frame r.slot) (s.modLine fun l => { l with receiver := .waiting }))
    (ite_kept' (otherArrival_kept _ fun f hc hf => h.config ▸ hslot f hc hf)) (h.hold.trans hhold) (h.waits hhold rfl)

theorem takeArrivalEnd_kept (s : State) : Kept s (takeArrivalEnd s) := by
  unfold takeArrivalEnd
  split
  · exact .refl s
  · rename_i r _
    refine closeArrival_kept r fun f hc hf =>
      slot_of_good (c := s.ctl.config) (bytes := r.bytes) (missing := r.missing || r.overlong) ?_
    exact Prod.ext hc hf

theorem cutArrival_kept (s : State) : Kept s (cutArrival s) := by
  unfold cutArrival
  split
  · exact .refl s
  · exact closeArrival_kept _ fun _ hc => by cases hc

/-! ### Medium holds and bit times -/

theorem abandonAny_kept (s : State) : Kept s (abandonAny s) := by
  unfold abandonAny
  split
  · exact abandonTransmission_kept ..
  · exact .refl s

/-- A hold that begins is counted (R13, R14). -/
theorem beginHold_steady (s : State) : Steady s (s.modLine fun l => { l with hold := true, holds := satInc l.holds }) :=
  modLine_steady ⟨BitVec.le_refl _, BitVec.le_refl _, BitVec.le_refl _, BitVec.le_refl _, BitVec.le_refl _, le_satInc _⟩

theorem cutAndFree_kept (s : State) :
    Kept s (if s.order.holdArrivalFirst then holdClaims (cutArrival s) else cutArrival (holdClaims s)) := by
  split
  · exact (cutArrival_kept s).trans (holdClaims_kept _)
  · exact (holdClaims_kept s).trans (cutArrival_kept _)

theorem takeHold_steady (s : State) : Steady s (takeHold s) :=
  (beginHold_steady s).trans <| ((raiseStation_kept ..).trans <| (cutAndFree_kept _).trans (abandonAny_kept _)).toSteady

/-- A hold cuts the arrival in progress off. -/
theorem cutArrival_waits {s : State} (h : s.line.hold = true) : (cutArrival s).line.receiver = .waiting := by
  unfold cutArrival
  split
  · assumption
  · exact closeArrival_waits _ h fun _ hc => by cases hc

/-- A frame that a hold ends is held no more. -/
theorem abandonAny_noFrame {s : State} (h : s.line.hold = true) : (abandonAny s).line.tx = none := by
  unfold abandonAny
  split
  · exact (reportEnd_kept _ .abandoned (s.modLine fun l => { l with tx := none })).noFrame h rfl
  · assumption

theorem takeHold_holdLaw (s : State) : (takeHold s).HoldLaw := by
  intro _
  have hold : (raiseStation 4 0 0 (s.modLine fun l => { l with hold := true, holds := satInc l.holds })).line.hold = true := rfl
  simp only [takeHold]
  generalize raiseStation 4 0 0 (s.modLine fun l => { l with hold := true, holds := satInc l.holds }) = t at hold
  have held := (cutAndFree_kept t).hold.trans hold
  refine ⟨abandonAny_noFrame held, (abandonAny_kept _).waits held ?_⟩
  split
  · exact (holdClaims_kept _).waits ((cutArrival_kept t).hold.trans hold) (cutArrival_waits hold)
  · exact cutArrival_waits ((holdClaims_kept t).hold.trans hold)

theorem takeRelease_steady (s : State) : Steady s (takeRelease s) :=
  (modLine_steady (f := fun l => { l with hold := false }) (.refl _)).trans (raiseStation_kept ..).toSteady

theorem takeRelease_holdLaw (s : State) : (takeRelease s).HoldLaw := fun h => by cases h

theorem measure_hold (level : Level) (l : LineUnit) : (l.measure level).hold = l.hold := by
  unfold LineUnit.measure
  split <;> rfl

theorem measure_kept (level : Level) (s : State) : Kept s (s.modLine (·.measure level)) := by
  have h (l : LineUnit) : l.CountsUp (l.measure level) ∧ (l.measure level).tx = l.tx ∧ (l.measure level).receiver = l.receiver := by
    unfold LineUnit.measure
    split <;> exact ⟨.refl _, rfl, rfl⟩
  obtain ⟨hc, htx, hr⟩ := h s.line
  exact modLine_kept hc (measure_hold level _) (fun _ => htx.trans) fun _ => hr.trans

/-- In a hold no start bit is taken (R15). -/
theorem hearAtReceiver_kept (level : Level) (before : Nat) (s : State) : Kept s (hearAtReceiver level before s) := by
  unfold hearAtReceiver
  exact modLine_kept (.refl _) rfl (fun _ => id) fun hh hr => by simp [hr, hh, Receiver.hear]

theorem readBack_kept (level : Level) (s : State) : Kept s (readBack level s) := by
  unfold readBack
  split
  · exact .refl s
  · rename_i t ht
    split
    · exact .refl s
    · split
      · exact modLine_kept (.refl _) rfl (fun _ h => by simp [ht] at h) fun _ => id
      · exact loseTransmission_kept ..

theorem hearBit_steady (level : Level) (s : State) : Steady s (hearBit level s) := by
  refine (measure_kept level s).toSteady.trans ?_
  simp only [hearBit]
  split
  · exact (takeHold_steady _).trans (finish_kept _).toSteady
  · exact ((hearAtReceiver_kept ..).trans (readBack_kept ..)).toSteady

theorem hearBit_holdLaw (level : Level) {s : State} (hs : s.HoldLaw) : (hearBit level s).HoldLaw := by
  have hm := (measure_kept level s).holdLaw hs
  simp only [hearBit]
  split
  · exact (finish_kept _).holdLaw (takeHold_holdLaw _)
  · exact ((hearAtReceiver_kept ..).trans (readBack_kept ..)).holdLaw hm

theorem takeLineEnd_steady (s : State) : Steady s (takeLineEnd s) := by
  have release (t : State) : Steady t (if t.releaseDue then takeRelease t else t) := by
    split
    · exact takeRelease_steady t
    · exact .refl t
  exact (ite_kept (takeArrivalEnd_kept s)).toSteady.trans (release _)

theorem takeLineEnd_holdLaw {s : State} (hs : s.HoldLaw) : (takeLineEnd s).HoldLaw := by
  have release {t : State} (ht : t.HoldLaw) : (if t.releaseDue then takeRelease t else t).HoldLaw := by
    split
    · exact takeRelease_holdLaw t
    · exact ht
  exact release ((ite_kept (takeArrivalEnd_kept s)).holdLaw hs)

theorem stepTimer_kept (s : State) : Kept s (stepTimer s) := by
  refine ite_kept' ?_
  split
  · exact passSlot_kept s
  · exact (modSlot_kept (f := fun u => { u with timer := u.timer + 1 }) rfl rfl (BitVec.le_refl _)).trans
      (ite_kept (takeSendPoint_kept _))

theorem endBit_steady (s : State) : Steady s (endBit s) := by
  refine (takeSent_kept s).toSteady.trans ?_
  simp only [endBit]
  generalize takeSent s = s
  have first := (takeLineEnd_steady s).trans (finish_kept _).toSteady
  split
  · split
    · split
      · exact first.trans (stepTimer_kept _).toSteady
      · exact first
    · exact ((stepTimer_kept s).trans <| (takeAllDue_kept _).trans (finish_kept _)).toSteady.trans (takeLineEnd_steady _)
  · exact (stepTimer_kept s).toSteady.trans (takeLineEnd_steady _)

theorem endBit_holdLaw {s : State} (hs : s.HoldLaw) : (endBit s).HoldLaw := by
  have hs := (takeSent_kept s).holdLaw hs
  simp only [endBit]
  generalize takeSent s = s at hs
  have first := (finish_kept _).holdLaw (takeLineEnd_holdLaw hs)
  split
  · split
    · split
      · exact (stepTimer_kept _).holdLaw first
      · exact first
    · exact takeLineEnd_holdLaw (((stepTimer_kept s).trans <| (takeAllDue_kept _).trans (finish_kept _)).holdLaw hs)
  · exact takeLineEnd_holdLaw ((stepTimer_kept s).holdLaw hs)

/-- One bit time keeps what every reaction keeps. -/
theorem bitTime_steady (level : Level) (s : State) : Steady s (bitTime level s) :=
  ((passMoment_kept s).trans (pastBeginning_kept _)).toSteady.trans <| (hearBit_steady level _).trans <| (endBit_steady _).trans
    (finish_kept _).toSteady

/-- One bit time leaves a medium hold a quiet one (R14, R15). -/
theorem bitTime_holdLaw (level : Level) {s : State} (hs : s.HoldLaw) : (bitTime level s).HoldLaw :=
  (finish_kept _).holdLaw <| endBit_holdLaw <| hearBit_holdLaw level <| ((passMoment_kept s).trans (pastBeginning_kept _)).holdLaw hs

theorem passBits_steady (rxd : List Level) (s : State) : Steady s (passBits rxd s) := by
  induction rxd generalizing s with
  | nil => exact .refl s
  | cons level rxd ih => exact (bitTime_steady level s).trans (ih _)

theorem passBits_holdLaw (rxd : List Level) {s : State} (hs : s.HoldLaw) : (passBits rxd s).HoldLaw := by
  induction rxd generalizing s with
  | nil => exact hs
  | cons level rxd ih => exact ih (bitTime_holdLaw level hs)

end Sys2Proof.Machine

namespace Sys2Proof.Machine

/-! ## What every step keeps -/

/-! ### The effects of the commands -/

/-- What the effect of every command keeps: the laws, the counters, at most eight words returned, and outside OFF the configuration and the
descriptors. -/
structure Obeys (s : State) (r : Reply) : Prop where
  sizes : s.SizesLaw → r.state.SizesLaw
  collector : s.CollectorLaw → r.state.CollectorLaw
  hold : s.HoldLaw → r.state.HoldLaw
  counts : CountsUp s r.state
  words : r.returned.length ≤ 8
  standing : s.ctl.state ≠ .off → r.state.ctl.config = s.ctl.config
    ∧ r.state.pub.catalogue.map (·.descriptor) = s.pub.catalogue.map (·.descriptor)

theorem Obeys.of_kept {s : State} {r : Reply} (h : Kept s r.state) (hw : r.returned.length ≤ 8) : Obeys s r :=
  ⟨h.sizesLaw, h.collector, h.holdLaw, h.counts, hw, fun _ => ⟨h.config, h.points⟩⟩

theorem obeys_only {s t : State} (c : ResultCode) (h : Kept s t) : Obeys s (Reply.only c t) := .of_kept h (Nat.zero_le _)

/-- A command that changes nothing. -/
theorem obeys_same (c : ResultCode) (s : State) : Obeys s (Reply.only c s) := obeys_only c (.refl s)

theorem obeys_ite {p : Prop} [Decidable p] {s : State} {q r : Reply} (hq : p → Obeys s q) (hr : ¬p → Obeys s r) :
    Obeys s (if p then q else r) := by
  split
  · exact hq ‹_›
  · exact hr ‹_›

/-- The five fields of CONFIGURE that are taken lie in their ranges (R43). -/
theorem configurationOf_inRange {args : List Word} {c : Configuration} (h : configurationOf args = some c) :
    c.inRange ∧ 0 < c.slots := by
  simp only [configurationOf] at h
  split at h
  · cases h
    simp only [Configuration.inRange, Config.stations] at *
    omega
  · cases h

theorem configureEffect_obeys (args : List Word) (s : State) : Obeys s (configureEffect args s) := by
  refine obeys_ite (fun _ => obeys_same ..) fun hoff => ?_
  split
  · exact obeys_same ..
  · rename_i c hc
    obtain ⟨hrange, hpos⟩ := configurationOf_inRange hc
    refine ⟨fun hs => ?_, id, id, .refl s, Nat.zero_le _, fun h => absurd h hoff⟩
    obtain ⟨-, -, -, hpeers, himage, hargs, hrun, hcounter⟩ := hs
    have hzero := hcounter (not_not.mp hoff)
    refine ⟨hrange, by simp [Reply.only], ?_, hpeers, himage, hargs, hrun, fun _ => hzero⟩
    show s.slot.counter < c.slots
    omega

/-- An effect that goes on with a reaction. -/
theorem Obeys.finish {s t : State} {c : ResultCode} {ws : List Word} (h : Obeys s ⟨t, c, ws⟩) : Obeys s ⟨finish t, c, ws⟩ :=
  have k := finish_kept t
  ⟨k.sizesLaw ∘ h.sizes, k.collector ∘ h.collector, k.holdLaw ∘ h.hold, h.counts.trans k.counts, h.words, fun hs => by
    obtain ⟨hc, hp⟩ := h.standing hs
    exact ⟨k.config.trans hc, k.points.trans hp⟩⟩

/-- Leaving OFF sets the slot counter to 0 (R46). -/
theorem joinAs_obeys {st : StationState} (hst : st ≠ .off) (s : State) : Obeys s (Reply.only .ok (joinAs st s)) where
  sizes hs := by
    obtain ⟨hrange, hmap, hcounter, hpeers, himage, hargs, hrun, -⟩ := hs
    exact ⟨hrange, hmap, Nat.zero_lt_of_lt hcounter, hpeers, himage, hargs, hrun, fun h => absurd h hst⟩
  collector := id
  hold := id
  counts := .refl s
  words := Nat.zero_le _
  standing _ := ⟨rfl, rfl⟩

theorem joinEffect_obeys (args : List Word) (s : State) : Obeys s (joinEffect args s) := by
  unfold joinEffect
  split
  · exact obeys_same ..
  · split
    · exact obeys_same ..
    · split
      · split
        · exact obeys_same ..
        · exact (joinAs_obeys (by decide) s).finish
      · split
        · exact (joinAs_obeys (by decide) s).finish
        · exact obeys_same ..

theorem leaveEffect_obeys (args : List Word) (s : State) : Obeys s (leaveEffect args s) := by
  have off := obeys_only (s := s) .ok ((enterOff_kept 5 s).trans (finish_kept _))
  have leaving (h : s.ctl.state ≠ .off) := obeys_only (s := s) .ok ((enterLeaving_kept h).trans (finish_kept _))
  unfold leaveEffect
  split
  · exact obeys_same ..
  · exact off
  · exact off
  · exact leaving (by simp [*])
  · exact leaving (by simp [*])
  · exact obeys_same ..

theorem setConditionEffect_obeys (args : List Word) (s : State) : Obeys s (setConditionEffect args s) := by
  have set (b : Bool) : Obeys s (Reply.only .ok (setLocalFault b s)) :=
    obeys_only .ok (modCtl_kept (f := fun c => { c with cond := { c.cond with localFault := b } }) rfl Iff.rfl)
  exact obeys_ite (fun _ => set true) fun _ => obeys_ite (fun _ => set false) fun _ => obeys_same ..

theorem feedEffect_obeys (args : List Word) (s : State) : Obeys s (feedEffect args s) :=
  obeys_only .ok ((feedTimer_kept s).trans (finish_kept _))

/-- A change of the catalogue, which is made in OFF only (R59). -/
theorem catalogue_obeys (c : List Point) {s : State} (hoff : s.ctl.state = .off) :
    Obeys s (Reply.only .ok (s.modPub fun p => { p with catalogue := c })) :=
  ⟨id, id, id, .refl s, Nat.zero_le _, fun h => absurd hoff h⟩

theorem definePointEffect_obeys (args : List Word) (s : State) : Obeys s (definePointEffect args s) := by
  refine obeys_ite (fun _ => obeys_same ..) fun hoff => obeys_ite (fun _ => obeys_same ..) fun _ => ?_
  split
  · exact obeys_same ..
  · exact obeys_ite (fun _ => obeys_same ..) fun _ => catalogue_obeys _ (not_not.mp hoff)

theorem clearCatalogueEffect_obeys (args : List Word) (s : State) : Obeys s (clearCatalogueEffect args s) :=
  obeys_ite (fun _ => obeys_same ..) fun hoff => catalogue_obeys _ (not_not.mp hoff)

theorem setPointEffect_obeys (args : List Word) (s : State) : Obeys s (setPointEffect args s) := by
  unfold setPointEffect
  split
  · exact obeys_same ..
  · refine obeys_ite (fun _ => obeys_only .ok ?_) fun _ => obeys_same ..
    exact (setPointValue_kept ..).trans <| (feedTimer_kept _).trans (finish_kept _)

theorem getPointEffect_obeys (args : List Word) (s : State) : Obeys s (getPointEffect args s) := by
  unfold getPointEffect
  split
  · exact obeys_same ..
  · exact .of_kept (.refl s) (Nat.le_of_ble_eq_true rfl)

theorem subscribeEffect_obeys (args : List Word) (s : State) : Obeys s (subscribeEffect args s) := by
  have judged (i : Nat) (s : State) : Kept s (judgeSubscribed i s) := by
    unfold judgeSubscribed
    split
    · exact passEntry_kept ..
    · exact resolveEntry_kept ..
  refine obeys_ite (fun _ => obeys_same ..) fun _ => obeys_ite (fun _ => obeys_same ..) fun _ =>
    obeys_ite (fun _ => obeys_same ..) fun _ => obeys_ite (fun _ => obeys_same ..) fun _ =>
    obeys_ite (fun _ => obeys_same ..) fun _ => obeys_ite (fun _ => obeys_same ..) fun _ => obeys_only .ok ?_
  exact (modEntry_kept ..).trans <| (judged ..).trans (finish_kept _)

theorem unsubscribeEffect_obeys (args : List Word) (s : State) : Obeys s (unsubscribeEffect args s) :=
  obeys_ite (fun _ => obeys_same ..) fun _ => obeys_ite (fun _ => obeys_same ..) fun _ =>
    obeys_only .ok ((modEntry_kept ..).trans <| (missEntry_kept ..).trans (finish_kept _))

theorem readImageEffect_obeys (args : List Word) (s : State) : Obeys s (readImageEffect args s) := by
  refine obeys_ite (fun _ => obeys_same ..) fun _ => .of_kept (.refl s) ?_
  simp only [ImageEntry.words]
  split <;> simp

theorem setWatchEffect_obeys (args : List Word) (s : State) : Obeys s (setWatchEffect args s) := by
  have evaluated (i : Nat) (s : State) : Kept s (evaluateIfFresh i s) := by
    unfold evaluateIfFresh
    split
    · exact evaluateWatch_kept ..
    · exact .refl s
  refine obeys_ite (fun _ => obeys_same ..) fun _ => obeys_ite (fun _ => obeys_same ..) fun _ =>
    obeys_ite (fun _ => obeys_same ..) fun _ => obeys_ite (fun _ => obeys_only .ok ?_) fun _ => obeys_same ..
  exact (modEntry_kept ..).trans <| (evaluated ..).trans <| (takeCall_kept _).trans (finish_kept _)

theorem clearWatchEffect_obeys (args : List Word) (s : State) : Obeys s (clearWatchEffect args s) :=
  obeys_ite (fun _ => obeys_same ..) fun _ => obeys_ite (fun _ => obeys_same ..) fun _ => obeys_only .ok (modEntry_kept ..)

theorem readPeerEffect_obeys (args : List Word) (s : State) : Obeys s (readPeerEffect args s) :=
  obeys_ite (fun _ => obeys_same ..) fun _ => .of_kept (modPeer_kept ..) (by simp [PeerRecord.words])

theorem readShapeEffect_obeys (args : List Word) (s : State) : Obeys s (readShapeEffect args s) := by
  refine obeys_ite (fun _ => obeys_same ..) fun _ => ?_
  split
  · exact obeys_same ..
  · exact .of_kept (.refl s) (by simp [shapeWords])

theorem refreshPeerEffect_obeys (args : List Word) (s : State) : Obeys s (refreshPeerEffect args s) :=
  obeys_ite (fun _ => obeys_same ..) fun _ => obeys_ite
    (fun _ => obeys_only .ok ((modPeer_kept ..).trans <| (imageRetried_kept ..).trans (finish_kept _))) fun _ => obeys_same ..

theorem readSlotEffect_obeys (args : List Word) (s : State) : Obeys s (readSlotEffect args s) := by
  refine obeys_ite (fun _ => obeys_same ..) fun _ => .of_kept (.refl s) ?_
  simp only [slotWords]
  cases (s.slotAt (argN args 0)).state <;> simp [SlotState.words]

theorem enterApplication_kept (args : List Word) (kind : RequestKind) (s : State) : Kept s (enterApplication args kind s).state :=
  (enterRecord_kept ..).trans <| (ite_kept (endRecord_kept ..)).trans (finish_kept _)

theorem sendRequestEffect_obeys (args : List Word) (s : State) : Obeys s (sendRequestEffect args s) := by
  refine obeys_ite (fun _ => obeys_same ..) fun _ => obeys_ite (fun _ => obeys_same ..) fun _ => ?_
  split
  · exact obeys_same ..
  · refine obeys_ite (fun _ => obeys_same ..) fun _ => obeys_ite (fun _ => obeys_same ..) fun _ =>
      obeys_ite (fun _ => obeys_same ..) fun _ => obeys_ite (fun _ => obeys_same ..) fun _ => .of_kept (enterApplication_kept ..) ?_
    simp [enterApplication, sentTags]

theorem takeResultEffect_obeys (args : List Word) (s : State) : Obeys s (takeResultEffect args s) := by
  refine obeys_ite (fun _ => obeys_same ..) fun _ => ?_
  split
  · exact obeys_same ..
  · rename_i r _
    refine .of_kept (removeRecord_kept ..) ?_
    simp only [RequestRecord.words, resultContent]
    cases r.content <;> simp

theorem cancelRequestEffect_obeys (args : List Word) (s : State) : Obeys s (cancelRequestEffect args s) := by
  refine obeys_ite (fun _ => obeys_same ..) fun _ => ?_
  split
  · exact obeys_same ..
  · refine obeys_only .ok (.trans (ite_kept ?_) ((removeRecord_kept ..).trans (finish_kept _)))
    exact .of_requests (breakChain_outsideRequests ..)

/-- A unit that is not COLLECTING takes another state that needs nothing of the other unit (R159, R160). -/
theorem modUnit_rest_kept {u : UnitId} {f : SnapshotUnit → SnapshotUnit} {s : State} (hs : (s.unit u).state ≠ .collecting)
    (hc : (f (s.unit u)).state ≠ .collecting) (hp : (f (s.unit u)).state ≠ .pending) : Kept s (s.modUnit u f) := by
  refine .of_units (modUnit_outsideUnits u f s) fun h => ?_
  rw [collectorLaw_iff u] at h ⊢
  simp only [unit_modUnit_same, unit_modUnit_other]
  exact ⟨fun hb => hc hb.1, fun hx => absurd hx hp, fun hx => absurd (h.2.2 hx) hs⟩

theorem setSnapshotEffect_obeys (args : List Word) (s : State) : Obeys s (setSnapshotEffect args s) := by
  unfold setSnapshotEffect
  split
  · exact obeys_same ..
  · rename_i u _
    refine obeys_ite (fun _ => obeys_same ..) fun hc => ?_
    split
    · exact obeys_same ..
    · exact obeys_only .ok (modUnit_rest_kept hc (by simp [SnapshotUnit.disarmed]) (by simp [SnapshotUnit.disarmed]))
    · refine obeys_ite (fun _ => obeys_only .ok ?_) fun _ => obeys_same ..
      exact modUnit_rest_kept hc (by simp [SnapshotUnit.programmed]) (by simp [SnapshotUnit.programmed])

theorem fireSnapshotEffect_obeys (args : List Word) (s : State) : Obeys s (fireSnapshotEffect args s) :=
  obeys_ite (fun _ => obeys_same ..) fun _ => obeys_ite (fun _ => obeys_same ..) fun _ =>
    .of_kept ((giveTriggers_kept ..).trans <| (takeCall_kept _).trans (finish_kept _)) (by simp [unitStates])

theorem rearmSnapshotEffect_obeys (args : List Word) (s : State) : Obeys s (rearmSnapshotEffect args s) := by
  unfold rearmSnapshotEffect
  split
  · exact obeys_same ..
  · split
    case h_2 hu => exact obeys_only .ok (modUnit_rest_kept (by simp [hu]) (by simp) (by simp))
    all_goals exact obeys_same ..

theorem readSnapshotEffect_obeys (args : List Word) (s : State) : Obeys s (readSnapshotEffect args s) := by
  unfold readSnapshotEffect
  split
  · exact obeys_same ..
  · rename_i u _
    refine obeys_ite (fun _ => obeys_same ..) fun _ => obeys_ite (fun _ => obeys_same ..) fun _ => .of_kept (.refl s) ?_
    simp only [SnapshotUnit.words]
    cases getElem? (s.unit u).places (argN args 1) <;> simp [placeWords]

/-- A change of the host link that keeps its ARG words, its running command and its reset. -/
theorem hostLink_kept {s : State} (h : HostLink) (ha : h.args = s.host.args) (hr : h.running = s.host.running)
    (hp : h.resetting = s.host.resetting) : Kept s { s with host := h } :=
  .of_same rfl rfl rfl rfl rfl ha hr hp rfl rfl rfl rfl id

theorem takeEventEffect_obeys (args : List Word) (s : State) : Obeys s (takeEventEffect args s) := by
  unfold takeEventEffect
  split
  · exact .of_kept (hostLink_kept _ rfl rfl rfl) (by simp)
  · exact .of_kept (hostLink_kept _ rfl rfl rfl) (by simp [eventWords])

/-- The effect of every command keeps the laws. -/
theorem effectOf_obeys (n : Nat) (args : List Word) (s : State) : Obeys s (effectOf n args s) := by
  unfold effectOf
  split
  · exact configureEffect_obeys args s
  · exact definePointEffect_obeys args s
  · exact clearCatalogueEffect_obeys args s
  · exact joinEffect_obeys args s
  · exact leaveEffect_obeys args s
  · exact setConditionEffect_obeys args s
  · exact feedEffect_obeys args s
  · exact setPointEffect_obeys args s
  · exact getPointEffect_obeys args s
  · exact subscribeEffect_obeys args s
  · exact unsubscribeEffect_obeys args s
  · exact readImageEffect_obeys args s
  · exact setWatchEffect_obeys args s
  · exact clearWatchEffect_obeys args s
  · exact readPeerEffect_obeys args s
  · exact readShapeEffect_obeys args s
  · exact refreshPeerEffect_obeys args s
  · exact readSlotEffect_obeys args s
  · exact sendRequestEffect_obeys args s
  · exact takeResultEffect_obeys args s
  · exact cancelRequestEffect_obeys args s
  · exact setSnapshotEffect_obeys args s
  · exact fireSnapshotEffect_obeys args s
  · exact rearmSnapshotEffect_obeys args s
  · exact readSnapshotEffect_obeys args s
  · exact takeEventEffect_obeys args s
  · exact .of_kept (.refl s) (by simp [readCountersEffect, counterWords])
  · exact obeys_same ..

/-! ### Every step -/

/-- What a step keeps: the laws; and, where it does not end in a reset, the counters and, unless the moment before has entered OFF, the
configuration and the descriptors. -/
structure Lawful (s t : State) : Prop where
  sizes : s.SizesLaw → t.SizesLaw
  collector : s.CollectorLaw → t.CollectorLaw
  hold : s.HoldLaw → t.HoldLaw
  counts : t.host.resetting = .idle → CountsUp s t
  standing : t.host.resetting = .idle → (settle s).ctl.state ≠ .off → t.ctl.config = s.ctl.config
    ∧ t.pub.catalogue.map (·.descriptor) = s.pub.catalogue.map (·.descriptor)

theorem Steady.lawful {s t : State} (h : Steady s t) (hh : s.HoldLaw → t.HoldLaw) : Lawful s t :=
  ⟨h.sizesLaw, h.collector, hh, fun _ => h.counts, fun _ _ => ⟨h.config, h.points⟩⟩

theorem Kept.lawful {s t : State} (h : Kept s t) : Lawful s t := h.toSteady.lawful h.holdLaw

/-- A change of the host link and of TRIG only, the ARG words staying eight and the words to return at most eight. -/
theorem Lawful.of_host {s : State} (h : HostLink) (g : Trig)
    (hargs : (∀ c, s.host.running = some c → c.returned.length ≤ 8) → s.host.args.length = 8 → h.args.length = 8)
    (hrun : (∀ c, s.host.running = some c → c.returned.length ≤ 8) → ∀ c, h.running = some c → c.returned.length ≤ 8) :
    Lawful s { s with host := h, trig := g } where
  sizes hs := by
    obtain ⟨hrange, hmap, hcounter, hpeers, himage, hlen, hwords, hoff⟩ := hs
    exact ⟨hrange, hmap, hcounter, hpeers, himage, hargs hwords hlen, hrun hwords, hoff⟩
  collector := id
  hold := id
  counts _ := .refl s
  standing _ _ := ⟨rfl, rfl⟩

theorem reset_sizesLaw : State.reset.SizesLaw :=
  ⟨by unfold Configuration.inRange; decide, rfl, by decide, rfl, rfl, rfl, fun _ h => by simp [State.reset, HostLink.reset] at h, fun _ => rfl⟩

theorem reset_collectorLaw : State.reset.CollectorLaw := by
  unfold State.CollectorLaw
  decide

/-- A reset gives every block its reset value, which meets the laws (R172). -/
theorem resetState_lawful {phase : ResetPhase} (hphase : phase ≠ .idle) (s : State) : Lawful s (resetState phase s) where
  sizes _ := reset_sizesLaw
  collector _ := reset_collectorLaw
  hold _ h := Bool.noConfusion h
  counts h := absurd h hphase
  standing h := absurd h hphase

theorem takeCommand_lawful {effect : List Word → State → Reply} (word : Word) (s : State)
    (h : ∀ args s, Obeys s (effect args s)) : Lawful s (takeCommand word effect s) := by
  have refused : Lawful s (refuse s) := .of_host _ _ (fun _ => id) id
  unfold takeCommand
  split
  · exact (Kept.refl s).lawful
  · exact refused
  · split
    · exact refused
    · have k := settle_kept s
      have o := h (settle s).host.args (settle s)
      refine ⟨fun hs => ?_, o.collector ∘ k.collector, o.hold ∘ k.holdLaw, fun _ => k.counts.trans o.counts, fun _ hoff => ?_⟩
      · obtain ⟨hrange, hmap, hcounter, hpeers, himage, hlen, -, hzero⟩ := o.sizes (k.sizesLaw hs)
        exact ⟨hrange, hmap, hcounter, hpeers, himage, hlen, fun c hc => by cases hc; exact o.words, hzero⟩
      · obtain ⟨hc, hp⟩ := o.standing hoff
        exact ⟨hc.trans k.config, hp.trans k.points⟩

theorem takeReset_lawful (word : Word) (s : State) : Lawful s (takeReset word s) := by
  unfold takeReset
  split
  · exact (Kept.refl s).lawful
  · exact resetState_lawful (by simp) s

theorem writeCommand_lawful (word : Word) (s : State) : Lawful s (writeCommand word s) := by
  unfold writeCommand
  split
  · exact (Kept.refl s).lawful
  · split
    · exact takeReset_lawful word s
    · exact takeCommand_lawful word s (effectOf_obeys _)

theorem writeWindow_lawful (address : BitVec 7) (word : Word) (s : State) : Lawful s (writeWindow address word s) := by
  unfold writeWindow
  split
  · exact writeCommand_lawful word s
  · split
    · unfold writeArg
      split
      · exact .of_host _ _ (fun _ h => by simpa using h) id
      · exact (Kept.refl s).lawful
    · exact (Kept.refl s).lawful

theorem sampleWord_kept (address : BitVec 7) (s : State) : Kept s (sampleWord address s) :=
  (settle_kept s).trans (hostLink_kept _ rfl rfl rfl)

theorem whenLive_kept {f : State → State} (h : ∀ s, Kept s (f s)) (s : State) : Kept s (whenLive f s) := ite_kept (h s)

/-- TRIG takes a level, between two reactions that are kept (R149). -/
theorem Lawful.of_trig {s t u : State} (g : Trig) (h : Kept s t) (k : Kept { t with trig := g } u) : Lawful s u :=
  ⟨fun hs => k.sizesLaw (h.sizesLaw hs), fun hs => k.collector (h.collector hs), fun hs => k.holdLaw (h.holdLaw hs),
    fun _ => h.counts.trans k.counts, fun _ _ => ⟨k.config.trans h.config, k.points.trans h.points⟩⟩

theorem trigEdge_lawful (level : Bool) (s : State) : Lawful s (whenLive (followEdge level) (setPin level s)) := by
  unfold whenLive
  split
  · exact .of_trig ⟨level, level⟩ (settle_kept s)
      ((giveTriggers_kept ..).trans <| (takeCall_kept _).trans (finish_kept _))
  · exact .of_trig { (settle s).trig with pin := level } (settle_kept s) (.refl _)

theorem startSlot_kept (s : State) : Kept s (startSlot s) :=
  ite_kept ((takeSlotEnd_kept s).trans <| (takeListen_kept _).trans (takeStart_kept _))

/-- A row of bus time keeps the laws. -/
theorem passRow_lawful (before : List Level) (last : Level) {s t : State} (h : passRow before last s = .next t) : Lawful s t := by
  cases h
  unfold whenLive
  split
  · exact (passBits_steady _ s).lawful (passBits_holdLaw _)
  · exact (Kept.refl s).lawful

/-- A reaction's row keeps the laws. -/
theorem reaction_lawful {f : State → State} (hf : ∀ s, Kept s (f s)) {s t : State}
    (h : Host.Outcome.next (whenLive (fun s => finish (f s)) s) = (.next t : Host.Outcome State Fault Refusal)) : Lawful s t := by
  cases h
  exact (whenLive_kept (fun s => (hf s).trans (finish_kept _)) s).lawful

/-- A command's row keeps the laws. -/
theorem command_lawful {word : Word} {effect : List Word → State → Reply} {s t : State} (hf : ∀ args s, Obeys s (effect args s))
    (h : Host.Outcome.next (takeCommand word effect s) = (.next t : Host.Outcome State Fault Refusal)) : Lawful s t := by
  cases h
  exact takeCommand_lawful word s hf

theorem commandCompletion_lawful {s t : State} (h : execCommandCompletion s = .next t) : Lawful s t := by
  unfold execCommandCompletion at h
  split at h
  · rename_i c _ hrun
    cases h
    refine .of_host _ _ (fun hw hlen => ?_) fun _ c hc => by cases hc
    have := hw c hrun
    simp only [completeCommand, List.length_append, List.length_drop]
    omega
  · cases h
    exact (Kept.refl _).lawful

theorem resetComplete_lawful {s t : State} (h : execResetComplete s = .next t) : Lawful s t := by
  unfold execResetComplete at h
  split at h
  · cases h
    exact .of_host _ _ (fun _ => id) id
  all_goals
    cases h
    exact (Kept.refl _).lawful

/-- Every row of the table keeps the laws. -/
theorem exec_lawful (i : Instr) {s t : State} (h : exec i s = .next t) : Lawful s t := by
  cases i with
  | reset => cases h; exact takeReset_lawful _ s
  | configure => exact command_lawful configureEffect_obeys h
  | definePoint => exact command_lawful definePointEffect_obeys h
  | clearCatalogue => exact command_lawful clearCatalogueEffect_obeys h
  | join => exact command_lawful joinEffect_obeys h
  | leave => exact command_lawful leaveEffect_obeys h
  | setCondition => exact command_lawful setConditionEffect_obeys h
  | feed => exact command_lawful feedEffect_obeys h
  | setPoint => exact command_lawful setPointEffect_obeys h
  | getPoint => exact command_lawful getPointEffect_obeys h
  | subscribe => exact command_lawful subscribeEffect_obeys h
  | unsubscribe => exact command_lawful unsubscribeEffect_obeys h
  | readImage => exact command_lawful readImageEffect_obeys h
  | setWatch => exact command_lawful setWatchEffect_obeys h
  | clearWatch => exact command_lawful clearWatchEffect_obeys h
  | readPeer => exact command_lawful readPeerEffect_obeys h
  | readShape => exact command_lawful readShapeEffect_obeys h
  | refreshPeer => exact command_lawful refreshPeerEffect_obeys h
  | readSlot => exact command_lawful readSlotEffect_obeys h
  | sendRequest => exact command_lawful sendRequestEffect_obeys h
  | takeResult => exact command_lawful takeResultEffect_obeys h
  | cancelRequest => exact command_lawful cancelRequestEffect_obeys h
  | setSnapshot => exact command_lawful setSnapshotEffect_obeys h
  | fireSnapshot => exact command_lawful fireSnapshotEffect_obeys h
  | rearmSnapshot => exact command_lawful rearmSnapshotEffect_obeys h
  | readSnapshot => exact command_lawful readSnapshotEffect_obeys h
  | takeEvent => exact command_lawful takeEventEffect_obeys h
  | readCounters => exact command_lawful (effectOf_obeys 0x1C) h
  | unknownCommandCode => cases h; exact writeCommand_lawful _ s
  | commandWriteRefused => cases h; exact writeCommand_lawful _ s
  | commandCompletion => exact commandCompletion_lawful h
  | resetComplete => exact resetComplete_lawful h
  | statusRead =>
    simp only [exec, execStatusRead] at h
    split at h <;> cases h
    · exact (Kept.refl _).lawful
    · exact (sampleWord_kept ..).lawful
  | windowWrite =>
    simp only [exec, execWindowWrite] at h
    split at h <;> cases h
    · exact (Kept.refl _).lawful
    · exact writeWindow_lawful ..
  | resetnAssert => cases h; exact resetState_lawful (by simp) s
  | resetnRelease =>
    simp only [exec, execResetnRelease] at h
    split at h <;> cases h
    · exact resetState_lawful (by simp) s
    · exact (Kept.refl _).lawful
  | trigEdge =>
    simp only [exec, execTrigEdge] at h
    split at h <;> cases h
    · exact (Kept.refl _).lawful
    · exact trigEdge_lawful ..
  | startBitTaken => exact passRow_lawful _ _ h
  | arrivalEnd => exact passRow_lawful _ _ h
  | arbitrationLoss => exact passRow_lawful _ _ h
  | sendPoint => exact passRow_lawful _ _ h
  | transmissionSent => exact passRow_lawful _ _ h
  | holdBegin => exact passRow_lawful _ _ h
  | holdEnd => exact passRow_lawful _ _ h
  | endOfSlot => exact passRow_lawful _ _ h
  | silenceLimit => exact reaction_lawful takeSilence_kept h
  | roundBoundary => exact reaction_lawful takeSlotEnd_kept h
  | startOfSlot => exact reaction_lawful startSlot_kept h
  | listenEnd => exact reaction_lawful takeListen_kept h
  | leavingLimit => exact reaction_lawful takeLeaving_kept h
  | hostLost => exact reaction_lawful takeHost_kept h
  | staleAge => exact reaction_lawful takeAges_kept h
  | answerWaitExpiry => exact reaction_lawful takeWaits_kept h
  | roundTrigger => exact reaction_lawful takePeriods_kept h
  | deadlinePassed => exact reaction_lawful takeDeadline_kept h
  | discoveryEntry => cases h; exact (whenLive_kept giveDiscovery_kept s).lawful

/-- The controller's own time keeps the laws. -/
theorem ownTime_lawful (s : State) : Lawful s (ownTime s) := by
  unfold ownTime
  split
  · exact (passMoment_kept s).lawful
  · exact (bitTime_steady _ s).lawful (bitTime_holdLaw _)

/-- A step keeps the laws: the command it takes is taken from the state with the rest of the queue. -/
theorem step_lawful {s t : State} (h : step s = .next t) :
    Lawful s t ∨ ∃ rest, Lawful { s with pending := rest } t := by
  unfold step at h
  split at h
  · cases h
    refine .inl ?_
    unfold whenLive
    split
    · exact ownTime_lawful s
    · exact (Kept.refl _).lawful
  · exact .inr ⟨_, exec_lawful _ h⟩

/-- Settles O53. -/
theorem stepsKeepTheSizes : Obligations.StepsKeepTheSizes := by
  intro s t hs h
  obtain h | ⟨rest, h⟩ := step_lawful h
  · exact h.sizes hs
  · exact h.sizes hs

/-- Settles O57. -/
theorem stepsKeepOneCollectionAndQuietHolds : Obligations.StepsKeepOneCollectionAndQuietHolds := by
  refine ⟨fun s t hs h => ?_, fun s t hs h => ?_⟩
  · obtain h | ⟨rest, h⟩ := step_lawful h
    · exact h.collector hs
    · exact h.collector hs
  · obtain h | ⟨rest, h⟩ := step_lawful h
    · exact h.hold hs
    · exact h.hold hs

end Sys2Proof.Machine

namespace Sys2Proof.Machine

/-! ## The moment's end: station control and what is due

What station control and the reactions due become when a moment is over depends on them alone: `Clock` is that part of a state, and each
reaction is a function of it. -/

/-- Station control and what is due. -/
abbrev Clock := StationControl × Due

def State.clock (s : State) : Clock := (s.ctl, s.due)

/-- Station control in OFF (R52). -/
def StationControl.entered (c : StationControl) : StationControl :=
  { c with state := .off, listening := 0, leaving := 0, hostLoss := 0, cond := { c.cond with leaving := false, hostLost := false } }

/-- Station control at a boundary in LISTENING (R47). -/
def StationControl.listened (c : StationControl) : StationControl :=
  if c.state = .listening then
    if Config.listenRounds ≤ c.listening + 1 then { c with listening := c.listening + 1, state := .claiming }
    else { c with listening := c.listening + 1 }
  else c

/-- Station control at a boundary that the host-loss timer counts (R55). -/
def StationControl.hosted (c : StationControl) : StationControl :=
  if c.state = .off ∨ c.config.timeout = 0 ∨ c.cond.hostLost then c
  else if c.hostLoss + 1 = c.config.timeout then { c with hostLoss := c.hostLoss + 1, cond := { c.cond with hostLost := true } }
  else { c with hostLoss := c.hostLoss + 1 }

def Clock.listen (c : Clock) : Clock := (if c.2.listen then c.1.listened else c.1, { c.2 with listen := false })

/-- The leaving count, and the entering of OFF at 2 (R51). -/
def Clock.leave (c : Clock) : Clock :=
  if c.2.leaving = true ∧ c.1.state = .leaving then
    if Config.leavingRounds ≤ c.1.leaving + 1 then (c.1.entered, Due.none)
    else ({ c.1 with leaving := c.1.leaving + 1 }, { c.2 with leaving := false })
  else (c.1, { c.2 with leaving := false })

def Clock.host (c : Clock) : Clock := (if c.2.host then c.1.hosted else c.1, { c.2 with host := false })

/-- Every reaction to a boundary (R47, R51, R55, R108, R137, R149). -/
def Clock.react (c : Clock) : Clock :=
  ((Clock.host (Clock.leave (Clock.listen c))).1,
    { (Clock.host (Clock.leave (Clock.listen c))).2 with ages := false, waits := false, periods := false })

/-- A boundary makes every reaction due (R16). -/
def Clock.count (c : Clock) : Clock :=
  if c.react.1.state = .off then c.react
  else (c.react.1, { c.react.2 with listen := true, leaving := true, host := true, ages := true, waits := true, periods := true })

/-- The end of a slot: the silence limit, then the passage to slot 0. -/
def Clock.slotEnd (c : Clock) : Clock :=
  if c.2.boundary then Clock.count (c.1, { c.2 with silence := none, boundary := false }) else (c.1, { c.2 with silence := none })

theorem candidateSearch_clock (s : State) : (candidateSearch s).clock = s.clock :=
  (congrArg State.clock (candidateSearch_outsideMap s) :)

theorem giveTriggers_clock (a b : Bool) (s : State) : (giveTriggers a b s).clock = s.clock :=
  (congrArg State.clock (giveTriggers_outsideUnits a b s) :)

theorem takePeriods_clock (s : State) : (takePeriods s).clock = (s.ctl, { s.due with periods := false }) := by
  simp only [takePeriods]
  split
  · exact (giveTriggers_clock ..).trans rfl
  · rename_i h
    simp only [State.clock, ← Bool.eq_false_of_not_eq_true h]

theorem imageOff_clock (s : State) : (imageOff s).clock = s.clock := by
  have h : ∀ s i, (entryOff s i).clock = s.clock := by
    intro s i
    unfold entryOff
    split
    · rfl
    · exact (congrArg State.clock (passEntry_outsideImage ..) :)
  have fold : ∀ (l : List Nat) s, (l.foldl entryOff s).clock = s.clock := by
    intro l
    induction l with
    | nil => intro s; rfl
    | cons i l ih => intro s; rw [List.foldl_cons, ih, h]
  simp only [imageOff, fold]
  exact (congrArg State.clock (collectorOff_outsideUnits _) : _).trans (fold _ s)

theorem enterOff_clock (cause : Nat) (s : State) : (enterOff cause s).clock = (s.ctl.entered, Due.none) := by
  have hreq : ∀ t, (requestsOff t).clock = t.clock := fun t => (congrArg State.clock (requestsOff_outsideRequests t) :)
  have both : ∀ t, (imageAndRequestsOff t).ctl = t.ctl := by
    intro t
    refine congrArg Prod.fst (show (imageAndRequestsOff t).clock = t.clock from ?_)
    unfold imageAndRequestsOff
    split
    · rw [hreq, imageOff_clock]
    · rw [imageOff_clock, hreq]
  refine Prod.ext ?_ rfl
  show (imageAndRequestsOff (stationOff (passStation .off cause (takePeriods s)))).ctl = _
  rw [both]
  show ({ (takePeriods s).ctl with state := _ } : StationControl).entered = _
  rw [show (takePeriods s).ctl = s.ctl from congrArg Prod.fst (takePeriods_clock s)]
  rfl

theorem clock_eq (s : State) : s.clock = (s.ctl, s.due) := rfl

theorem takeListen_clock (s : State) : (takeListen s).clock = s.clock.listen := by
  rw [clock_eq s]
  by_cases hd : s.due.listen = true
  · by_cases hs : s.ctl.state = .listening
    · by_cases hn : Config.listenRounds ≤ s.ctl.listening + 1
      · simp only [takeListen, Clock.listen, StationControl.listened, hd, hs, hn, if_true, modDue_ctl, modCtl_ctl,
          candidateSearch_clock]
        rfl
      · simp only [takeListen, Clock.listen, StationControl.listened, hd, hs, hn, if_true, if_false, modDue_ctl, modCtl_ctl]
        rw [← hs]
        rfl
    · simp only [takeListen, Clock.listen, StationControl.listened, hd, hs, if_true, if_false, modDue_ctl]
      rfl
  · rw [takeListen, Clock.listen, if_neg hd, if_neg hd, clock_eq]
    simp only [← Bool.eq_false_of_not_eq_true hd]

theorem takeLeaving_clock (s : State) : (takeLeaving s).clock = s.clock.leave := by
  rw [clock_eq s]
  by_cases hd : s.due.leaving = true
  · by_cases hs : s.ctl.state = .leaving
    · by_cases hn : Config.leavingRounds ≤ s.ctl.leaving + 1
      · simp only [takeLeaving, Clock.leave, hd, hs, hn, and_self, if_true, modDue_ctl, modCtl_ctl, enterOff_clock]
        rfl
      · simp only [takeLeaving, Clock.leave, hd, hs, hn, and_self, if_true, if_false, modDue_ctl, modCtl_ctl]
        rw [← hs]
        rfl
    · simp only [takeLeaving, Clock.leave, hd, hs, and_false, if_true, if_false, modDue_ctl]
      rfl
  · rw [takeLeaving, Clock.leave, if_neg hd, if_neg fun h => hd h.1, clock_eq]
    simp only [← Bool.eq_false_of_not_eq_true hd]

theorem takeHost_clock (s : State) : (takeHost s).clock = s.clock.host := by
  rw [clock_eq s]
  by_cases hd : s.due.host = true
  · by_cases hs : s.ctl.state = .off ∨ s.ctl.config.timeout = 0 ∨ s.ctl.cond.hostLost
    · simp only [takeHost, Clock.host, StationControl.hosted, hd, hs, if_true, modDue_ctl]
      rfl
    · by_cases hn : s.ctl.hostLoss + 1 = s.ctl.config.timeout
      · simp only [takeHost, Clock.host, StationControl.hosted, hd, hs, hn, if_true, if_false, modDue_ctl, modCtl_ctl]
        rw [← hn]
        rfl
      · simp only [takeHost, Clock.host, StationControl.hosted, hd, hs, hn, if_true, if_false, modDue_ctl, modCtl_ctl]
        rfl
  · rw [takeHost, Clock.host, if_neg hd, if_neg hd, clock_eq]
    simp only [← Bool.eq_false_of_not_eq_true hd]

theorem forEntries_clock (p : ImageEntry → Bool) {act : Nat → State → State}
    (h : ∀ i s, (act i s).outsideImage = s.outsideImage) (s : State) : (forEntries p act s).clock = s.clock :=
  (congrArg State.clock (forEntries_outsideImage p h s) :)

theorem takeAges_clock (s : State) : (takeAges s).clock = (s.ctl, { s.due with ages := false }) := by
  simp only [takeAges]
  split
  · split
    · rfl
    · refine (forEntries_clock _ (fun i s => ?_) _).trans rfl
      simp only [ageEntry]
      split <;> simp
  · rename_i h
    simp [State.clock, ← Bool.eq_false_of_not_eq_true h]

theorem waitRecord_clock (s : State) (id : Nat) : (waitRecord discoveryNoAnswer s id).clock = s.clock := by
  have ended (r : RequestRecord) (t : State) : (discoveryNoAnswer r t).clock = t.clock := by
    simp only [discoveryNoAnswer]
    split
    · refine (congrArg State.clock (imageFailed_outsideImage ..) :).trans ?_
      exact (congrArg State.clock (modPeer_outsidePeers ..) :).trans rfl
    · rfl
  unfold waitRecord
  split
  · rfl
  · split
    · simp only []
      split
      · rfl
      · split
        · rfl
        · split
          · exact (congrArg State.clock (endRecord_outsideRequests ..) :).trans rfl
          · exact (ended _ _).trans rfl
    · rfl

theorem takeWaits_clock (s : State) : (takeWaits s).clock = (s.ctl, { s.due with waits := false }) := by
  have fold : ∀ (l : List Nat) (t : State), (l.foldl (waitRecord discoveryNoAnswer) t).clock = t.clock := by
    intro l
    induction l with
    | nil => intro t; rfl
    | cons i l ih => intro t; rw [List.foldl_cons, ih, waitRecord_clock]
  simp only [takeWaits]
  split
  · split
    · rfl
    · exact (fold _ _).trans rfl
  · rename_i h
    simp [State.clock, ← Bool.eq_false_of_not_eq_true h]

theorem takeDeadline_clock (s : State) : (takeDeadline s).clock = s.clock :=
  (congrArg State.clock (takeDeadline_outsideUnits s) :)

theorem takeReactions_clock (s : State) : (takeReactions s).clock = s.clock.react := by
  have h1 := takeListen_clock s
  have h2 := takeLeaving_clock (takeListen s)
  have h3 := takeHost_clock (takeLeaving (takeListen s))
  rw [h1] at h2
  rw [h2] at h3
  simp only [takeReactions]
  generalize takeHost (takeLeaving (takeListen s)) = t at h3
  have h4 := takeAges_clock t
  have h5 := takeWaits_clock (takeAges t)
  have h6 := takeDeadline_clock (takeWaits (takeAges t))
  have h7 := takePeriods_clock (takeDeadline (takeWaits (takeAges t)))
  simp only [State.clock, Prod.mk.injEq] at h4 h5 h6
  rw [h7, h6.1, h6.2, h5.1, h5.2, h4.1, h4.2]
  rw [Clock.react, ← h3]
  rfl

theorem countBoundary_clock (s : State) : (countBoundary s).clock = s.clock.count := by
  have h := takeReactions_clock s
  simp only [countBoundary, Clock.count, ← h]
  split
  · rename_i hoff
    simp [State.clock, hoff]
  · rename_i hoff
    rw [if_neg (by exact hoff)]
    set u := candidateSearch ((takeReactions s).modSlot fun u => { u with round := u.round + 1 })
    have hu : u.clock = (takeReactions s).clock := candidateSearch_clock _
    simp only [State.clock, Prod.mk.injEq] at hu
    have mark (t : State) : (markDeadlines t).clock = t.clock := rfl
    rw [mark]
    simp only [State.clock, modDue_ctl, modDue_due, hu.1, hu.2]

theorem takeSlotEnd_clock (s : State) : (takeSlotEnd s).clock = s.clock.slotEnd := by
  have silence : (takeSilence s).clock = (s.ctl, { s.due with silence := none }) := by
    unfold takeSilence
    split
    · rename_i h
      simp [State.clock, ← h]
    · simp only []
      split
      · exact (congrArg State.clock (setSlotState_outsideMap ..) :).trans rfl
      · rfl
  simp only [State.clock, Prod.mk.injEq] at silence
  simp only [takeSlotEnd, takeBoundary, silence.2, Clock.slotEnd]
  split
  · rename_i h
    rw [if_pos (by exact h), countBoundary_clock]
    simp [State.clock, silence.1, silence.2]
  · rename_i h
    rw [if_neg (by exact h)]
    simp [State.clock, silence.1, silence.2]

/-- When the moment is over, station control is what the clock's reactions make of it. -/
theorem takeMoment_ctl (s : State) : (takeMoment s).ctl = s.clock.slotEnd.react.1 := by
  have call : (takeMoment s).ctl = (takeAllDue s).ctl := (congrArg State.ctl (takeCall_outsideUnits _) :)
  have start (t : State) : (takeStart t).ctl = t.ctl := by
    simp only [takeStart]
    split
    · split
      · rfl
      · split <;> rfl
    · rfl
  have h := takeReactions_clock (takeSlotEnd s)
  rw [takeSlotEnd_clock] at h
  rw [call, takeAllDue, start, ← h]
  rfl

/-- Station control after the moment does not depend on the queue of commands. -/
theorem settle_ctl_of_pending (s : State) (rest : List Instr) :
    (settle { s with pending := rest }).ctl = (settle s).ctl := by
  have ended (t : State) : (settle t).ctl
      = if t.host.resetting = .idle ∧ t.hasDue then t.clock.slotEnd.react.1 else t.ctl := by
    unfold settle
    split
    · rw [finish_frame]
      exact takeMoment_ctl t
    · rfl
  rw [ended, ended]
  rfl

/-- Settles O60. -/
theorem configurationStandsAndCountersNeverFall : Obligations.ConfigurationStandsAndCountersNeverFall := by
  refine ⟨fun s t hoff h hidle => ?_, fun x => ?_, fun s t h hidle => ?_⟩
  · obtain h | ⟨rest, h⟩ := step_lawful h
    · exact h.standing hidle hoff
    · exact h.standing hidle (by rwa [settle_ctl_of_pending])
  · unfold satInc
    have hx := x.isLt
    split
    · rename_i h
      subst h
      rfl
    · rename_i h
      have hne : x.toNat ≠ 65535 := fun hx => h (BitVec.eq_of_toNat_eq (by simpa using hx))
      have hsum : (x + 1).toNat = x.toNat + 1 := by
        rw [BitVec.toNat_add]
        exact Nat.mod_eq_of_lt (by simp; omega)
      omega
  · have counts : CountsUp s t := by
      obtain h | ⟨rest, h⟩ := step_lawful h
      · exact h.counts hidle
      · exact h.counts hidle
    obtain ⟨⟨h1, h2, h3, h4, h5, h6⟩, h7, h8, h9, h10, h11⟩ := counts
    exact ⟨h1, h2, h3, h4, h5, h6, h7, h8, h9, h10, h11⟩

end Sys2Proof.Machine

namespace Sys2Proof.Machine

/-! ## Nothing is left due when the moment is over -/

/-! ### The deadline counts -/

/-- No boundary is left to be added to a unit's deadline count (R156). -/
abbrev State.noDeadline (s : State) (v : UnitId) : Prop := (s.unit v).deadlineDue = false

theorem modUnit_noDeadline {u v : UnitId} {f : SnapshotUnit → SnapshotUnit} {s : State}
    (hf : ∀ x, x.deadlineDue = false → (f x).deadlineDue = false) (h : s.noDeadline v) : (s.modUnit u f).noDeadline v := by
  cases u <;> cases v <;> first | exact h | exact hf _ h

theorem raise_noDeadline {v : UnitId} {s : State} (k : EventKind) (c n d : Nat) (w : Word) (h : s.noDeadline v) :
    (raise k c n d w s).noDeadline v := by rwa [State.noDeadline, unit_raise]

theorem startCollection_noDeadline (u : UnitId) {v : UnitId} {s : State} (h : s.noDeadline v) : (startCollection u s).noDeadline v :=
  modUnit_noDeadline (fun _ _ => rfl) h

theorem closeCollection_noDeadline (u : UnitId) {v : UnitId} {s : State} (h : s.noDeadline v) : (closeCollection u s).noDeadline v :=
  raise_noDeadline _ _ _ _ _ (modUnit_noDeadline (fun _ _ => rfl) h)

theorem endCollection_noDeadline (u : UnitId) {v : UnitId} {s : State} (h : s.noDeadline v) : (endCollection u s).noDeadline v := by
  have h := closeCollection_noDeadline u h
  have h' := startCollection_noDeadline u.other h
  simp only [endCollection]
  split
  · split
    · exact closeCollection_noDeadline u.other h'
    · exact h'
  · exact h

theorem judgeEnd_noDeadline (u : UnitId) {v : UnitId} {s : State} (h : s.noDeadline v) : (judgeEnd u s).noDeadline v := by
  unfold judgeEnd
  split
  · exact endCollection_noDeadline u h
  · exact h

theorem actTrigger_noDeadline (u : UnitId) {v : UnitId} {s : State} (h : s.noDeadline v) : (actTrigger u s).noDeadline v := by
  have dropped : (dropTrigger u s).noDeadline v := modUnit_noDeadline (fun _ => id) h
  unfold actTrigger
  split
  case h_3 =>
    split
    · split
      · exact modUnit_noDeadline (fun _ => id) h
      · exact dropped
    · exact startCollection_noDeadline u h
  all_goals first | exact h | exact dropped

theorem answerCalls_noDeadline (n : Nat) {v : UnitId} {s : State} (h : s.noDeadline v) : (answerCalls n s).noDeadline v := by
  induction n generalizing s with
  | zero => exact h
  | succ n ih => exact ih (judgeEnd_noDeadline .b (actTrigger_noDeadline .b h))

theorem unit_called (n : Nat) (v : UnitId) (s : State) : { s with called := n }.unit v = s.unit v := by cases v <;> rfl

theorem unit_began (b : Bool) (v : UnitId) (s : State) : { s with began := b }.unit v = s.unit v := by cases v <;> rfl

theorem answerCall_noDeadline {v : UnitId} {s : State} (h : s.noDeadline v) : (answerCall s).noDeadline v :=
  answerCalls_noDeadline _ (by rwa [State.noDeadline, unit_called])

theorem takeCall_noDeadline {v : UnitId} {s : State} (h : s.noDeadline v) : (takeCall s).noDeadline v := by
  rw [State.noDeadline, takeCall, unit_began]
  exact answerCall_noDeadline h

theorem triggerA_noDeadline {v : UnitId} {s : State} (h : s.noDeadline v) : (triggerA s).noDeadline v :=
  answerCall_noDeadline (actTrigger_noDeadline .a (by rwa [State.noDeadline, unit_began]))

theorem triggerB_noDeadline {v : UnitId} {s : State} (h : s.noDeadline v) : (triggerB s).noDeadline v := by
  have called (n : Nat) : ({ s with called := n } : State).noDeadline v := by rwa [State.noDeadline, unit_called]
  unfold triggerB
  split
  · exact called _
  · split
    · exact called _
    · split
      · exact modUnit_noDeadline (fun _ => id) h
      · exact actTrigger_noDeadline .b h

theorem giveTriggers_noDeadline (a b : Bool) {v : UnitId} {s : State} (h : s.noDeadline v) : (giveTriggers a b s).noDeadline v := by
  have onA {t : State} (ht : t.noDeadline v) : (if a then triggerA t else t).noDeadline v := by
    split
    · exact triggerA_noDeadline ht
    · exact ht
  have onB {t : State} (ht : t.noDeadline v) : (if b then triggerB t else t).noDeadline v := by
    split
    · exact triggerB_noDeadline ht
    · exact ht
  have endA {t : State} (ht : t.noDeadline v) : (if a then judgeEnd .a t else t).noDeadline v := by
    split
    · exact judgeEnd_noDeadline .a ht
    · exact ht
  have endB {t : State} (ht : t.noDeadline v) : (if b then judgeEnd .b t else t).noDeadline v := by
    split
    · exact judgeEnd_noDeadline .b ht
    · exact ht
  exact endB (endA (onB (onA h)))

theorem takePeriods_noDeadline {v : UnitId} {s : State} (h : s.noDeadline v) : (takePeriods s).noDeadline v := by
  have counted (x : SnapshotUnit) : x.countPeriod.1.deadlineDue = x.deadlineDue := by
    unfold SnapshotUnit.countPeriod
    split
    · split <;> rfl
    all_goals rfl
  simp only [takePeriods]
  split
  · refine giveTriggers_noDeadline _ _ ?_
    cases v with
    | a => exact (counted s.unitA).trans h
    | b => exact (counted s.unitB).trans h
  · exact h

/-- A unit's reaction to a boundary clears what is due of its own deadline count, and leaves the other's clear (R156). -/
theorem takeUnitDeadline_noDeadline (u : UnitId) {v : UnitId} {s : State} (h : v = u ∨ s.noDeadline v) :
    (takeUnitDeadline u s).noDeadline v := by
  have cleared : ∀ f : SnapshotUnit → SnapshotUnit, (∀ x, (f x).deadlineDue = false) → (s.modUnit u f).noDeadline v := by
    intro f hf
    rcases h with rfl | h
    · simpa [State.noDeadline] using hf _
    · exact modUnit_noDeadline (fun x _ => hf x) h
  simp only [takeUnitDeadline]
  split
  · have hc := cleared (fun x => { x with deadlineDue := false, deadlineCount := x.deadlineCount + 1 }) fun _ => rfl
    split
    · exact endCollection_noDeadline u (modUnit_noDeadline (fun _ => id) hc)
    · exact hc
  · rename_i hd
    rcases h with rfl | h
    · simpa using hd
    · exact h

theorem takeDeadline_noDeadline (v : UnitId) (s : State) : (takeDeadline s).noDeadline v := by
  cases v with
  | a => exact takeUnitDeadline_noDeadline .b (.inr (takeUnitDeadline_noDeadline .a (.inl rfl)))
  | b => exact takeUnitDeadline_noDeadline .b (.inl rfl)

theorem takeStart_noDeadline {v : UnitId} {s : State} (h : s.noDeadline v) : (takeStart s).noDeadline v := by
  have units : (takeStart s).unitA = s.unitA ∧ (takeStart s).unitB = s.unitB := by
    simp only [takeStart]
    split
    · split
      · exact ⟨rfl, rfl⟩
      · split <;> exact ⟨rfl, rfl⟩
    · exact ⟨rfl, rfl⟩
  cases v with
  | a => exact (congrArg (·.deadlineDue) units.1).trans h
  | b => exact (congrArg (·.deadlineDue) units.2).trans h

theorem takeReactions_noDeadline (v : UnitId) (s : State) : (takeReactions s).noDeadline v :=
  takePeriods_noDeadline (takeDeadline_noDeadline v _)

/-! ### The triggers of B that waited -/

theorem modUnit_called (u : UnitId) (f : SnapshotUnit → SnapshotUnit) (s : State) : (s.modUnit u f).called = s.called := by
  cases u <;> rfl

theorem startCollection_called (u : UnitId) (s : State) : (startCollection u s).called = s.called := modUnit_called ..

theorem closeCollection_called (u : UnitId) (s : State) : (closeCollection u s).called = s.called := modUnit_called ..

theorem judgeEnd_called (u : UnitId) (s : State) : (judgeEnd u s).called = s.called := by
  unfold judgeEnd
  split
  · simp only [endCollection]
    split
    · split
      · rw [closeCollection_called, startCollection_called, closeCollection_called]
      · rw [startCollection_called, closeCollection_called]
    · exact closeCollection_called ..
  · rfl

theorem actTrigger_called (u : UnitId) (s : State) : (actTrigger u s).called = s.called := by
  unfold actTrigger
  split
  case h_3 =>
    split
    · split
      · exact modUnit_called ..
      · exact modUnit_called ..
    · exact startCollection_called ..
  all_goals first | rfl | exact modUnit_called ..

theorem answerCalls_called (n : Nat) (s : State) : (answerCalls n s).called = s.called := by
  induction n generalizing s with
  | zero => rfl
  | succ n ih => rw [answerCalls, ih, judgeEnd_called, actTrigger_called]

theorem takeCall_called (s : State) : (takeCall s).called = 0 := answerCalls_called _ _

/-! ### The reactions due -/

theorem takeStart_due (s : State) : (takeStart s).due = { s.due with start := false } := by
  simp only [takeStart]
  split
  · split
    · rfl
    · split <;> rfl
  · rename_i h
    simp only [← Bool.eq_false_of_not_eq_true h]

theorem leave_due (c : Clock) : c.leave.2 = { c.2 with leaving := false } ∨ c.leave.2 = Due.none := by
  unfold Clock.leave
  split
  · split
    · exact .inr rfl
    · exact .inl rfl
  · exact .inl rfl

/-- After every reaction to a boundary none of them is due. -/
theorem react_due (c : Clock) :
    c.react.2 = { c.2 with listen := false, leaving := false, host := false, ages := false, waits := false, periods := false }
      ∨ c.react.2 = Due.none := by
  simp only [Clock.react, Clock.host]
  rcases leave_due c.listen with h | h
  · exact .inl (by rw [h]; rfl)
  · exact .inr (by rw [h]; rfl)

/-- After the end of a slot neither its silence limit nor its passage to slot 0 is due. -/
theorem slotEnd_due (c : Clock) : c.slotEnd.2.silence = none ∧ c.slotEnd.2.boundary = false := by
  unfold Clock.slotEnd
  split
  · unfold Clock.count
    have h := react_due (c.1, { c.2 with silence := none, boundary := false })
    split
    · rcases h with h | h <;> rw [h] <;> exact ⟨rfl, rfl⟩
    · rcases h with h | h
      · exact ⟨congrArg Due.silence h, congrArg Due.boundary h⟩
      · exact ⟨congrArg Due.silence h, congrArg Due.boundary h⟩
  · rename_i hb
    exact ⟨rfl, Bool.eq_false_of_not_eq_true hb⟩

theorem takeMoment_due (s : State) : (takeMoment s).due = Due.none := by
  have call : (takeMoment s).due = (takeAllDue s).due := (congrArg State.due (takeCall_outsideUnits _) :)
  have h : (takeReactions (takeSlotEnd s)).due = s.clock.slotEnd.react.2 := by
    rw [← takeSlotEnd_clock, ← takeReactions_clock]
    rfl
  obtain ⟨hs, hb⟩ := slotEnd_due s.clock
  rw [call, takeAllDue, takeStart_due, h]
  rcases react_due s.clock.slotEnd with h | h <;> rw [h]
  · simp only [hs, hb]
    rfl
  · rfl

/-- When the moment is over nothing of it is due (log 2). -/
theorem takeMoment_hasDue (s : State) : (takeMoment s).hasDue = false := by
  have deadline (v : UnitId) : (takeMoment s).noDeadline v :=
    takeCall_noDeadline (takeStart_noDeadline (takeReactions_noDeadline v _))
  have hb : (takeMoment s).began = false := rfl
  have ha : (takeMoment s).unitA.deadlineDue = false := deadline .a
  have hc : (takeMoment s).unitB.deadlineDue = false := deadline .b
  have hcalled : (takeMoment s).called = 0 := takeCall_called _
  simp [State.hasDue, takeMoment_due, hcalled, ha, hb, hc]

/-! ### Commands come after the moment -/

theorem finish_hasDue (s : State) : (finish s).hasDue = s.hasDue := by
  rw [finish_frame]
  rfl

theorem settle_hasDue {s : State} (h : s.live) : (settle s).hasDue = false := by
  unfold settle
  split
  · rw [finish_hasDue, takeMoment_hasDue]
  · rename_i hd
    simpa [h] using hd

theorem settle_settle {s : State} (h : s.live) : settle (settle s) = settle s := settle_of_nothing (settle_hasDue h)

theorem takeCommand_settle {s : State} (h : s.live) (hr : s.host.running = none) (word : Word)
    (effect : List Word → State → Reply) : takeCommand word effect s = takeCommand word effect (settle s) := by
  have k := settle_kept s
  simp only [takeCommand, k.resetting, k.running, h, hr, settle_settle h]

theorem sampleWord_settle {s : State} (h : s.live) (address : BitVec 7) : sampleWord address s = sampleWord address (settle s) := by
  simp only [sampleWord, settle_settle h]

/-- Settles O7. -/
theorem commandsComeAfterTheMoment : Obligations.CommandsComeAfterTheMoment := by
  refine ⟨fun s h => ⟨settle_hasDue h, (settle_kept s).running, (settle_kept s).args⟩, ?_, ?_, fun s => settle_of_nothing⟩
  · intro s c top operand address h hr hc
    have command (word : Word) (effect : List Word → State → Reply) :
        Host.Outcome.next (takeCommand word effect s) = (.next (takeCommand word effect (settle s)) : Host.Outcome State Fault Refusal) :=
      congrArg _ (takeCommand_settle h hr word effect)
    simp only [List.mem_cons, List.not_mem_nil, or_false] at hc
    rcases hc with rfl | rfl | rfl | rfl | rfl | rfl | rfl | rfl | rfl | rfl | rfl | rfl | rfl | rfl | rfl | rfl | rfl | rfl | rfl
      | rfl | rfl | rfl | rfl | rfl | rfl | rfl | rfl | rfl
    case inr.inr.inr.inr.inr.inr.inr.inr.inr.inr.inr.inr.inr.inr.inr.inr.inr.inr.inr.inr.inr.inr.inr.inr.inr.inr.inr =>
      simp only [exec, execStatusRead, (settle_kept s).resetting, h, sampleWord_settle h address]
      rfl
    all_goals exact command _ _
  · intro s level h hpin
    simp only [exec, execTrigEdge, (settle_kept s).trig, if_neg hpin, setPin, settle_settle h]

end Sys2Proof.Machine

namespace Sys2Proof.Machine

/-! ## The receiver reads bytes (R1, R2) -/

/-- Eight data bits taken one after another, the most significant first, are the byte. -/
theorem takeBit_byte (b : Byte) :
    takeBit (levelOf (b.getLsbD 0)) (takeBit (levelOf (b.getLsbD 1)) (takeBit (levelOf (b.getLsbD 2))
      (takeBit (levelOf (b.getLsbD 3)) (takeBit (levelOf (b.getLsbD 4)) (takeBit (levelOf (b.getLsbD 5))
        (takeBit (levelOf (b.getLsbD 6)) (takeBit (levelOf (b.getLsbD 7)) 0))))))) = b := by
  have bit (c : Bool) (x : Byte) : takeBit (levelOf c) x = x <<< 1 ||| (BitVec.ofBool c).setWidth 8 := by
    cases c <;> rfl
  simp only [bit]
  apply BitVec.eq_of_getLsbD_eq
  intro i hi
  interval_cases i <;> simp

/-- Keeping a byte leaves the phase to the receiver. -/
theorem keep_phase (p : ReadPhase) (b : Byte) (r : Reception) :
    ({ r with phase := p } : Reception).keep b = { r.keep b with phase := p } := by
  unfold Reception.keep
  split <;> rfl

/-- A byte sent after a gap is kept, and the gap after its stop bit begins. -/
theorem hear_byteLevels (b : Byte) {r : Reception} {k : Nat} (h : r.phase = .gap k) :
    (byteLevels b).foldl (fun r level => r.hear level) r = { r.keep b with phase := .gap 0 } := by
  obtain ⟨slot, own, bytes, overlong, missing, phase⟩ := r
  simp only at h
  subst h
  have stop : (byteLevels b).foldl (fun r level => r.hear level) ⟨slot, own, bytes, overlong, missing, .gap k⟩
      = (⟨slot, own, bytes, overlong, missing, .stop (takeBit (levelOf (b.getLsbD 0)) (takeBit (levelOf (b.getLsbD 1))
          (takeBit (levelOf (b.getLsbD 2)) (takeBit (levelOf (b.getLsbD 3)) (takeBit (levelOf (b.getLsbD 4))
            (takeBit (levelOf (b.getLsbD 5)) (takeBit (levelOf (b.getLsbD 6)) (takeBit (levelOf (b.getLsbD 7)) 0))))))))⟩ :
          Reception).hear .recessive := rfl
  rw [stop, takeBit_byte]
  have kept := keep_phase (.stop b) b ⟨slot, own, bytes, overlong, missing, .gap k⟩
  simp only [Reception.hear] at kept ⊢
  rw [kept]

/-- A gap goes on for as many recessive bit times as come. -/
theorem hear_gap (g : Nat) {r : Reception} {k : Nat} (h : r.phase = .gap k) :
    (List.replicate g Level.recessive).foldl (fun r level => r.hear level) r = { r with phase := .gap (k + g) } := by
  induction g generalizing r k with
  | zero => simp [← h]
  | succ g ih =>
    have hr : r.hear .recessive = { r with phase := .gap (k + 1) } := by simp [Reception.hear, h]
    rw [List.replicate_succ, List.foldl_cons, hr, ih rfl]
    simp [Nat.add_assoc, Nat.add_comm 1 g]

/-- The levels of bytes with gaps behind them. -/
abbrev gappedLevels (sent : List (Byte × Nat)) : List Level :=
  sent.flatMap fun x => byteLevels x.1 ++ List.replicate x.2 .recessive

/-- Bytes sent with gaps behind them are kept one after another. -/
theorem hear_gapped (sent : List (Byte × Nat)) (b : Byte) (g : Nat) {r : Reception} {k : Nat} (h : r.phase = .gap k) :
    (gappedLevels (sent ++ [(b, g)])).foldl (fun r level => r.hear level) r
      = { (sent.map (·.1) ++ [b]).foldl (fun r b => r.keep b) r with phase := .gap g } := by
  have one (b : Byte) (g : Nat) {r : Reception} {k : Nat} (h : r.phase = .gap k) :
      (byteLevels b ++ List.replicate g Level.recessive).foldl (fun r level => r.hear level) r
        = { r.keep b with phase := .gap g } := by
    rw [List.foldl_append, hear_byteLevels b h, hear_gap g rfl]
    simp
  have keeps_phase (p : ReadPhase) (bs : List Byte) (r : Reception) :
      bs.foldl (fun r b => r.keep b) { r with phase := p } = { bs.foldl (fun r b => r.keep b) r with phase := p } := by
    induction bs generalizing r with
    | nil => rfl
    | cons b bs ih => rw [List.foldl_cons, keep_phase, ih, List.foldl_cons]
  induction sent generalizing r k with
  | nil => simpa [gappedLevels] using one b g h
  | cons x sent ih =>
    have step : gappedLevels (x :: sent ++ [(b, g)])
        = (byteLevels x.1 ++ List.replicate x.2 .recessive) ++ gappedLevels (sent ++ [(b, g)]) := by simp [gappedLevels]
    rw [step, List.foldl_append, one x.1 x.2 h, ih rfl, keeps_phase]
    rfl

/-- The first 96 bytes are kept, and more mark the arrival overlong (R2). -/
theorem foldl_keep (bs : List Byte) (r : Reception) (h : r.bytes.length ≤ 96) :
    bs.foldl (fun r b => r.keep b) r
      = { r with bytes := (r.bytes ++ bs).take 96, overlong := r.overlong || decide (96 < r.bytes.length + bs.length) } := by
  induction bs generalizing r with
  | nil =>
    have hn : ¬96 < r.bytes.length := by omega
    simp [List.take_of_length_le h, hn]
  | cons b bs ih =>
    rw [List.foldl_cons]
    by_cases hl : r.bytes.length < 96
    · have hk : r.keep b = { r with bytes := r.bytes ++ [b] } := if_pos hl
      rw [hk, ih _ (by simp; omega)]
      simp [Nat.add_assoc, Nat.add_comm 1 bs.length]
    · have hk : r.keep b = { r with overlong := true } := if_neg hl
      have hlen : r.bytes.length = 96 := by omega
      rw [hk, ih { r with overlong := true } h]
      simp [hlen]

/-- After a lost stop bit, the run of recessive bit times is all that the receiver follows. -/
theorem hear_broken (levels : List Level) {r : Reception} {k : Nat} (h : r.phase = .broken k) :
    ∃ m, levels.foldl (fun r level => r.hear level) r = { r with phase := .broken m } ∧ m ≤ k + levels.length
      ∧ ((∀ l ∈ levels, l = .recessive) → m = k + levels.length) := by
  induction levels generalizing r k with
  | nil => exact ⟨k, by simp [← h], by simp, fun _ => by simp⟩
  | cons l levels ih =>
    cases l with
    | dominant =>
      have hr : r.hear .dominant = { r with phase := .broken 0 } := by simp [Reception.hear, h]
      obtain ⟨m, hm, hle, -⟩ := ih (r := r.hear .dominant) (k := 0) (by rw [hr])
      exact ⟨m, by rw [List.foldl_cons, hm, hr], by simp; omega, fun hall => by simpa using hall .dominant (by simp)⟩
    | recessive =>
      have hr : r.hear .recessive = { r with phase := .broken (k + 1) } := by simp [Reception.hear, h]
      obtain ⟨m, hm, hle, heq⟩ := ih (r := r.hear .recessive) (k := k + 1) (by rw [hr])
      refine ⟨m, by rw [List.foldl_cons, hm, hr], by simp; omega, fun hall => ?_⟩
      rw [heq fun x hx => hall x (by simp [hx])]
      simp
      omega

theorem ended_of_gap {r : Reception} {k : Nat} (h : r.phase = .gap k) : r.ended = decide (12 ≤ k) := by
  simp only [Reception.ended, h]
  rfl

theorem ended_of_broken {r : Reception} {k : Nat} (h : r.phase = .broken k) : r.ended = decide (12 ≤ k) := by
  simp only [Reception.ended, h]
  rfl

/-- Settles O30. -/
theorem theReceiverReadsWhatIsSent : Obligations.TheReceiverReadsWhatIsSent := by
  refine ⟨fun slot own sent b g _ hg => ?_, fun r bits levels hr => ?_⟩
  · intro levels bytes heard
    have hheard : heard = ⟨slot, own, bytes.take 96, decide (96 < bytes.length), false, .gap g⟩ := by
      have hlevels : levels = .dominant :: levels.tail := by
        cases sent <;> rfl
      have hfold : heard = levels.foldl (fun r level => r.hear level) ⟨slot, own, [], false, false, .gap 0⟩ := by
        rw [hlevels]
        rfl
      rw [hfold]
      have hread := hear_gapped sent b g (r := ⟨slot, own, [], false, false, .gap 0⟩) rfl
      rw [foldl_keep _ _ (by simp)] at hread
      refine hread.trans ?_
      simp [bytes]
    refine ⟨hheard, ?_, ?_⟩
    · rw [ended_of_gap (k := g) (by rw [hheard])]
      exact decide_eq_false (by omega)
    · rw [hear_gap (12 - g) (k := g) (by rw [hheard]), ended_of_gap rfl]
      exact decide_eq_true (by omega)
  · intro heard
    have hfirst : r.hear .dominant = { r with missing := true, phase := .broken 0 } := by simp [Reception.hear, hr]
    obtain ⟨m, hm, hle, -⟩ := hear_broken levels (r := r.hear .dominant) (k := 0) (by rw [hfirst])
    have hheard : heard = { r with missing := true, phase := .broken m } := by
      show levels.foldl _ _ = _
      rw [hm, hfirst]
    refine ⟨by rw [hheard], by rw [hheard], by rw [hheard], fun hlen => ?_, fun hlen hall => ?_⟩
    · rw [ended_of_broken (k := m) (by rw [hheard])]
      exact decide_eq_false (by omega)
    · obtain ⟨n, hn, -, -⟩ := hear_broken (levels.take (levels.length - 12)) (r := r.hear .dominant) (k := 0) (by rw [hfirst])
      obtain ⟨q, hq, -, heq⟩ := hear_broken (levels.drop (levels.length - 12))
        (r := { r.hear .dominant with phase := .broken n }) (k := n) rfl
      have hsplit : heard = { r.hear .dominant with phase := .broken q } := by
        show levels.foldl _ _ = _
        conv_lhs => rw [← List.take_append_drop (levels.length - 12) levels]
        rw [List.foldl_append, hn, hq]
      have hq := heq hall
      rw [List.length_drop] at hq
      rw [ended_of_broken (k := q) (by rw [hsplit])]
      exact decide_eq_true (by omega)

/-! ## Rows of bus time (R1, log 8) -/

/-- Settles O29. -/
theorem bitTimesPassOneByOne : Obligations.BitTimesPassOneByOne := by
  refine ⟨fun s h row hrow before level last => ?_, fun s => ⟨fun h => ?_, fun x k hx hk => ?_⟩⟩
  · have passes : ∀ before last (t : State), exec (row before last) t = passRow before last t := by
      simp only [List.mem_cons, List.not_mem_nil, or_false] at hrow
      rcases hrow with rfl | rfl | rfl | rfl | rfl | rfl | rfl | rfl <;> intros <;> rfl
    have hlive : (passBits (before ++ [level]) s).live := (passBits_steady _ s).resetting.trans h
    refine ⟨passBits (before ++ [level]) s, ?_, hlive, ?_⟩
    · rw [passes, passRow, whenLive_of_live _ _ h]
    · rw [passes, passes, passRow_of_live h, passRow_of_live hlive]
      rfl
  · simp [State.txd, h]
  · have hon : s.txeOn = true := by simp [State.txeOn, hx, hk, TxPhase.isSending]
    exact ⟨hon, by simp [State.txd, hon, hx, Transmission.level, hk]⟩

/-! ## JOIN (R46) -/

/-- Ending a step in which one event was raised takes it into the queue. -/
theorem finish_visible_one {s : State} {e : EventRecord} (h : s.raised = [e]) :
    (finish s).visible = { s with host := enterEvent s.host e, raised := [] }.visible := by
  simp [finish, flushEvents, freshOrder, State.visible, h, interleave]

/-- Settles O10. -/
theorem joinEntersListeningOrObserver : Obligations.JoinEntersListeningOrObserver := by
  intro s top operand hready hsettled
  have row : exec (.join top operand) s = .next (takeCommand (commandWord top 0x05 operand) joinEffect s) := rfl
  have entered (st : StationState) : (finish (joinAs st s)).visible
      = ({ s with
          ctl := { s.ctl with state := st, listening := 0, hostLoss := 0 }
          slot := { s.slot with timer := 0, counter := 0 } }.withEvent .station 1 s.ctl.config.station 1
            (BitVec.ofNat 32 st.code)).visible := by
    have hdue := due_of_nothing hready.2.2
    rw [finish_visible_one (e := ⟨.station, 1, s.ctl.config.station, 1, BitVec.ofNat 32 st.code, s.slot.round⟩)]
    · simp [joinAs, passStation, raiseStation, raise, dueOff, State.modDue, State.modSlot, State.modCtl, State.withEvent,
        State.visible, hdue, hsettled]
    · simp [joinAs, passStation, raiseStation, dueOff, hsettled]
  refine ⟨fun h => ?_, fun hoff hstation harg => ?_, fun hoff hstation harg hwant => ?_, fun hoff hstation harg => ?_⟩
  · refine gives_taken_same row hready ?_
    by_cases hoff : s.ctl.state = .off
    · simp [joinEffect, hoff, h.resolve_left (not_not_intro hoff), Reply.only]
    · simp [joinEffect, hoff, Reply.only]
  · refine gives_taken_same row hready ?_
    simp only [State.argNat] at harg
    rcases harg with ⟨h1, h2⟩ | ⟨h1, hw⟩
    · simp [joinEffect, hoff, hstation, h1, h2, Reply.only]
    · simp [joinEffect, hoff, hstation, h1, hw, Reply.only]
  · refine gives_taken row hready ?_ (entered .listening)
    simp only [State.argNat] at harg
    simp [joinEffect, hoff, hstation, harg, hwant, Reply.only]
  · refine gives_taken row hready ?_ (entered .observer)
    simp only [State.argNat] at harg
    simp [joinEffect, hoff, hstation, harg, Reply.only]

end Sys2Proof.Machine

namespace Sys2Proof.Machine

/-! ## The round boundary (R16, R28, R29) -/

/-- The search finds the first place of its order that is open. -/
theorem candidate_eq_some {s : State} {j : Nat} (hj : j < s.ctl.config.slots)
    (hopen : (s.slotAt ((s.ctl.config.preferredSlot + j) % s.ctl.config.slots)).state = .free
      ∧ (s.slotAt ((s.ctl.config.preferredSlot + j) % s.ctl.config.slots)).activityLast = false)
    (hfirst : ∀ i, i < j → ¬((s.slotAt ((s.ctl.config.preferredSlot + i) % s.ctl.config.slots)).state = .free
      ∧ (s.slotAt ((s.ctl.config.preferredSlot + i) % s.ctl.config.slots)).activityLast = false)) :
    s.candidate? = some ((s.ctl.config.preferredSlot + j) % s.ctl.config.slots) := by
  have first : (List.range s.ctl.config.slots).find? ((fun k => (s.slotAt k).state == .free && !(s.slotAt k).activityLast)
      ∘ fun k => (s.ctl.config.preferredSlot + k) % s.ctl.config.slots) = some j := by
    rw [List.find?_range_eq_some]
    refine ⟨by simp [hopen], by simpa using hj, fun i hi => ?_⟩
    have hclosed := hfirst i hi
    rw [not_and_or] at hclosed
    simpa using hclosed
  rw [State.candidate?, Configuration.searchOrder, List.find?_map, first]
  rfl

/-- With no record open the search finds none. -/
theorem candidate_eq_none {s : State}
    (h : ∀ k, k < s.ctl.config.slots → ¬((s.slotAt k).state = .free ∧ (s.slotAt k).activityLast = false)) :
    s.candidate? = none := by
  rw [State.candidate?, List.find?_eq_none]
  intro k hk
  simp only [Configuration.searchOrder, List.mem_map, List.mem_range] at hk
  obtain ⟨i, hi, rfl⟩ := hk
  simpa using h _ (Nat.mod_lt _ (by omega))

/-- Outside a search nothing is chosen. -/
theorem candidateSearch_of_not {s : State} (h : ¬((s.ctl.state = .claiming ∨ s.ctl.state = .member) ∧ s.line.hold = false
    ∧ s.ownedCount + s.claimingCount < s.ctl.config.want)) : candidateSearch s = s := if_neg h

/-- The record that the search finds becomes CLAIMING, and the station is not STARVED. -/
theorem candidateSearch_of_some {s : State} {k : Nat} (h : (s.ctl.state = .claiming ∨ s.ctl.state = .member) ∧ s.line.hold = false
    ∧ s.ownedCount + s.claimingCount < s.ctl.config.want) (hk : s.candidate? = some k) :
    candidateSearch s
      = s.modSlot fun u =>
          { u with starved := false, map := u.map.modify k fun r => { r with state := .claiming 0, ownerHeard := false } } := by
  simp only [candidateSearch, if_pos h, hk]
  rfl

/-- A search that finds none reports STARVED once. -/
theorem candidateSearch_of_none {s : State} (h : (s.ctl.state = .claiming ∨ s.ctl.state = .member) ∧ s.line.hold = false
    ∧ s.ownedCount + s.claimingCount < s.ctl.config.want) (hk : s.candidate? = none) :
    candidateSearch s
      = if s.slot.starved then s
        else raise .slot 4 s.ctl.config.preferredSlot (s.ownedCount + s.claimingCount) (BitVec.ofNat 32 s.ctl.config.want)
          (s.modSlot fun u => { u with starved := true }) := by
  simp only [candidateSearch, if_pos h, hk]

/-- What a boundary makes due once the search is made (R16, R156). -/
def dueAtBoundary (s : State) : State :=
  markDeadlines (s.modDue fun d =>
    { d with listen := true, leaving := true, host := true, ages := true, waits := true, periods := true })

theorem dueAtBoundary_eq (s : State) :
    dueAtBoundary s
      = { s with
          due := ⟨s.due.silence, s.due.boundary, s.due.start, true, true, true, true, true, true⟩
          unitA := { s.unitA with deadlineDue := s.unitA.state = .collecting ∧ s.unitA.begunNow = false }
          unitB := { s.unitB with deadlineDue := s.unitB.state = .collecting ∧ s.unitB.begunNow = false } } := by
  simp [dueAtBoundary, markDeadlines, State.modUnit, State.modDue]

/-- With only the boundary and the start of a slot due, the end of a slot counts the round, searches and makes the reactions due. -/
theorem takeSlotEnd_of_boundary {s : State} {start : Bool} (hstate : s.ctl.state ≠ .off)
    (hdue : s.due = { Due.none with boundary := true, start := start }) (ha : s.unitA.deadlineDue = false)
    (hb : s.unitB.deadlineDue = false) :
    takeSlotEnd s
      = dueAtBoundary (candidateSearch
          { s with due := { Due.none with start := start }, slot := { s.slot with round := s.slot.round + 1 } }) := by
  have hsilence : takeSilence s = s := by simp [takeSilence, hdue, Due.none]
  have hquiet : takeReactions (s.modDue fun d => { d with boundary := false }) = { s with due := { Due.none with start := start } } := by
    rw [takeReactions_of_quiet (s := s.modDue _) (by simp [hdue, Due.none]) ha hb]
    simp [State.modDue, hdue, Due.none]
  have hboundary : s.due.boundary = true := by rw [hdue]
  simp only [takeSlotEnd, hsilence, takeBoundary, hboundary, if_true, countBoundary, hquiet, if_neg hstate]
  rfl

/-- Settles O46. -/
theorem boundarySearchesForASlot : Obligations.BoundarySearchesForASlot := by
  intro s start hlive hsettled hstate hdue ha hb mark slot base held searching nth open_
  let counted : State := { s with due := { Due.none with start := start }, slot := slot }
  have row : exec .roundBoundary s = .next (finish (dueAtBoundary (candidateSearch counted))) := by
    show execRoundBoundary s = _
    rw [execRoundBoundary, whenLive_of_live _ _ hlive, takeSlotEnd_of_boundary hstate hdue ha hb]
  have hbase : dueAtBoundary counted = base := by simp [dueAtBoundary_eq, counted, base, mark, Due.none]
  have quietly (t : State) (h : t.raised = []) : (finish (dueAtBoundary t)).visible = (dueAtBoundary t).visible :=
    finish_visible _ h
  refine ⟨fun h => ⟨_, row, ?_⟩, fun j h hj hopen hfirst => ⟨_, row, ?_⟩,
    fun h hnone => ⟨fun hst => ⟨_, row, ?_⟩, fun hst => ⟨_, row, ?_⟩⟩⟩
  · rw [candidateSearch_of_not (s := counted) h, quietly counted hsettled, hbase]
  · rw [candidateSearch_of_some (s := counted) h (candidate_eq_some (s := counted) hj hopen hfirst), ← hbase]
    exact quietly (counted.modSlot _) hsettled
  · rw [candidateSearch_of_none (s := counted) h (candidate_eq_none (s := counted) hnone), if_pos hst, quietly counted hsettled,
      hbase]
  · have hpref : s.ctl.config.preferredSlot = nth 0 := by simp [nth, Configuration.preferredSlot]
    rw [candidateSearch_of_none (s := counted) h (candidate_eq_none (s := counted) hnone), if_neg (by simp [counted, slot, hst]),
      finish_visible_one (e := ⟨.slot, 4, nth 0, held, BitVec.ofNat 32 s.ctl.config.want, slot.round⟩), ← hpref, ← hbase]
    · simp only [dueAtBoundary_eq]
      exact congrArg State.visible (by simp [State.withEvent, counted, raise, State.modSlot, hsettled])
    · rw [← hpref]
      show s.raised ++ _ = _
      rw [hsettled]
      rfl

end Sys2Proof.Machine

namespace Sys2Proof.Machine

/-! ## The start of a slot (R19, R20, R132, R135) -/

/-- A record's predecessor in course, found by its number, holds it (R132). -/
theorem held_iff {u : RequestUnit} {r : RequestRecord} (hn : (u.list.map (·.id)).Nodup) :
    u.held r = true ↔ ∃ p ∈ u.list, r.predecessor = some p.id ∧ p.state.live = true := by
  unfold RequestUnit.held
  cases hr : r.predecessor with
  | none => simp
  | some id =>
    simp only [Option.some.injEq, Option.any_eq_true]
    constructor
    · rintro ⟨p, hp, hlive⟩
      exact ⟨p, List.mem_of_find?_eq_some hp, (beq_iff_eq.mp (List.find?_some hp :)).symm, hlive⟩
    · rintro ⟨p, hp, rfl, hlive⟩
      obtain ⟨q, hq⟩ := Option.isSome_iff_exists.mp (List.find?_isSome.mpr ⟨p, hp, by simp⟩ :
        (u.list.find? (·.id == p.id)).isSome = true)
      have same : q.id = p.id := by simpa using List.find?_some hq
      obtain rfl := List.inj_on_of_nodup_map hn (List.mem_of_find?_eq_some hq) hp same
      exact ⟨q, hq, hlive⟩

/-- A record is eligible when it is WAITING and no predecessor holds it. -/
theorem eligible_iff {u : RequestUnit} {r : RequestRecord} (hn : (u.list.map (·.id)).Nodup) :
    (r.state == .waiting && !u.held r) = true
      ↔ r.state = .waiting ∧ ¬∃ p ∈ u.list, r.predecessor = some p.id ∧ p.state.live = true := by
  rw [Bool.and_eq_true, beq_iff_eq, Bool.not_eq_true', ← held_iff hn, Bool.not_eq_true]

/-- No record is eligible when all that are WAITING are held. -/
theorem firstEligible_eq_none {u : RequestUnit} (hn : (u.list.map (·.id)).Nodup)
    (h : ∀ q ∈ u.list, q.state = .waiting → ∃ p ∈ u.list, q.predecessor = some p.id ∧ p.state.live = true) :
    u.firstEligible = none := by
  rw [RequestUnit.firstEligible, List.find?_eq_none]
  intro q hq he
  rw [eligible_iff hn] at he
  exact he.2 (h q hq he.1)

/-- The first record in list order that is WAITING and not held is the one sent. -/
theorem firstEligible_eq_some {u : RequestUnit} {before after : List RequestRecord} {r : RequestRecord}
    (hn : (u.list.map (·.id)).Nodup) (hl : u.list = before ++ r :: after) (hw : r.state = .waiting)
    (hr : ¬∃ p ∈ u.list, r.predecessor = some p.id ∧ p.state.live = true)
    (h : ∀ q ∈ before, q.state = .waiting → ∃ p ∈ u.list, q.predecessor = some p.id ∧ p.state.live = true) :
    u.firstEligible = some r := by
  rw [RequestUnit.firstEligible, List.find?_eq_some_iff_append]
  refine ⟨(eligible_iff hn).mpr ⟨hw, hr⟩, before, after, hl, fun q hq => ?_⟩
  rw [Bool.not_eq_true', ← Bool.not_eq_true, eligible_iff hn]
  exact fun he => he.2 (h q hq he.1)

/-- With the start of a slot alone due, it takes the frame that is assembled, and keeps the one before where none is. -/
theorem startSlot_of_start {s : State} (hdue : s.due = { Due.none with start := true }) (hstate : s.ctl.state ≠ .off) :
    startSlot s
      = { s with
          due := Due.none
          line := { s.line with tx := (assembled s.slot.counter { s with due := Due.none }).or s.line.tx } } := by
  have hend : takeSlotEnd s = s := takeSlotEnd_of_clear (by rw [hdue]; rfl) (by rw [hdue]; rfl)
  have hlisten : takeListen s = s := by simp [takeListen, hdue, Due.none]
  have hstart : s.due.start = true := by rw [hdue]
  have hnone : (s.modDue fun d => { d with start := false }) = { s with due := Due.none } := by simp [State.modDue, hdue, Due.none]
  simp only [startSlot, hstart, if_true, hend, hlisten, takeStart, hnone, if_neg hstate]
  cases assembled s.slot.counter { s with due := Due.none } <;> rfl

/-- In a hold, and for a record neither OWNED nor CLAIMING, nothing is assembled. -/
theorem assembled_eq_none {s : State} {k : Nat}
    (h : s.line.hold = true ∨ ((s.slotAt k).state.isOwned = false ∧ (s.slotAt k).state.isClaiming = false)) :
    assembled k s = none := by
  unfold assembled
  rcases h with h | ⟨ho, hc⟩
  · rw [if_pos h]
  · split
    · rfl
    · cases hs : (s.slotAt k).state <;> simp_all [SlotState.isOwned, SlotState.isClaiming]

/-- A CLAIMING record assembles a claim frame. -/
theorem assembled_of_claiming {s : State} {k : Nat} (hh : s.line.hold = false) (hc : (s.slotAt k).state.isClaiming = true)
    (hst : s.ctl.state = .claiming ∨ s.ctl.state = .member) : assembled k s = some (claimTransmission k s) := by
  unfold assembled
  rw [if_neg (by simp [hh])]
  cases hs : (s.slotAt k).state with
  | claiming n => exact if_pos hst
  | free => simp [hs, SlotState.isClaiming] at hc
  | heard o n => simp [hs, SlotState.isClaiming] at hc
  | owned n => simp [hs, SlotState.isClaiming] at hc

/-- An OWNED record assembles a slot frame. -/
theorem assembled_of_owned {s : State} {k : Nat} (hh : s.line.hold = false) (ho : (s.slotAt k).state.isOwned = true)
    (hst : s.ctl.state = .member ∨ s.ctl.state = .leaving) : assembled k s = some (slotTransmission k s) := by
  unfold assembled
  rw [if_neg (by simp [hh])]
  cases hs : (s.slotAt k).state with
  | owned n => exact if_pos hst
  | free => simp [hs, SlotState.isOwned] at ho
  | heard o n => simp [hs, SlotState.isOwned] at ho
  | claiming n => simp [hs, SlotState.isOwned] at ho

/-- Settles O47. -/
theorem startOfSlotAssembles : Obligations.StartOfSlotAssembles := by
  intro s hlive hsettled
  have row : exec .startOfSlot s = .next (finish (startSlot s)) := by
    show execStartOfSlot s = _
    rw [execStartOfSlot, whenLive_of_live _ _ hlive]
  refine ⟨fun hstart => ⟨_, row, ?_⟩, fun hdue hstate => ?_⟩
  · rw [startSlot, if_neg (by simp [hstart]), finish_visible _ hsettled]
  · intro k st taken frame
    have gives {o : Option Transmission} (h : assembled k { s with due := Due.none } = o) :
        Gives .startOfSlot s (taken (o.or s.line.tx)) := by
      refine ⟨_, row, ?_⟩
      rw [startSlot_of_start hdue hstate, h]
      exact finish_visible (taken _) hsettled
    refine ⟨fun h => gives (assembled_eq_none h), fun hh hc hst => gives (assembled_of_claiming hh hc hst), ?_⟩
    intro request hh ho hst hn held hrequest
    have hfirst : s.req.firstEligible = request := by
      rcases hrequest with ⟨rfl, hall⟩ | ⟨before, r, after, rfl, hl, hw, hr, hbefore⟩
      · exact firstEligible_eq_none hn hall
      · exact firstEligible_eq_some hn hl hw hr hbefore
    subst hfirst
    exact gives (assembled_of_owned hh ho hst)

end Sys2Proof.Machine

namespace Sys2Proof.Machine

/-! ## One bit time, from a quiet state -/

/-- A quiet state in the middle of a bit time: the level is measured and the receiver has heard it. -/
def State.hearing (level : Level) (s : State) : State :=
  { pastBeginning s with line := { s.line.measure level with receiver := s.heard level } }

/-- A row of one bit time from a quiet state. -/
theorem row_of_quiet {s : State} {row : Instr} {level : Level} (hrow : exec row s = passRow [] level s) (h : s.quiet) :
    exec row s = .next (finish (endBit (hearBit level (pastBeginning s)))) := by
  rw [hrow, passRow_of_live h.1, passBits_nil, bitTime_of_quiet h]

/-- The measure of the runs leaves everything else of the line unit (R14, R15). -/
theorem measure_frame (level : Level) (l : LineUnit) :
    l.measure level = { l with rxd := (l.measure level).rxd, run := (l.measure level).run } := by
  unfold LineUnit.measure
  split <;> rfl

@[simp] theorem measure_receiver (level : Level) (l : LineUnit) : (l.measure level).receiver = l.receiver := by rw [measure_frame]

@[simp] theorem measure_tx (level : Level) (l : LineUnit) : (l.measure level).tx = l.tx := by rw [measure_frame]

@[simp] theorem measure_lost (level : Level) (l : LineUnit) : (l.measure level).lost = l.lost := by rw [measure_frame]

/-- A recessive level is no part of a dominant run. -/
theorem dominantRun_measure_recessive (l : LineUnit) : (l.measure .recessive).dominantRun = 0 := by
  unfold LineUnit.measure LineUnit.dominantRun
  split
  · next h => simp [← h]
  · simp

/-- Where no hold begins the receiver hears the level, and the bit sent is read back. -/
theorem hearBit_of_noHold {s : State} {level : Level} (h : s.noHold level) :
    hearBit level (pastBeginning s) = readBack level (s.hearing level) := by
  have hrun : ((pastBeginning s).line.measure level).dominantRun ≤ 20 ∨ (pastBeginning s).line.hold = true := by
    rcases h with h | rfl | h
    · exact .inr h
    · exact .inl ((dominantRun_measure_recessive _).trans_le (by omega))
    · exact .inl h
  rw [hearBit_of_no_hold hrun]
  have hheard : s.heard level = (s.line.measure level).receiver.hear level s.line.recessiveRun (s.line.measure level).hold
      (if s.ctl.state = .off then none else some s.slot.counter) := by rw [measure_receiver, measure_hold, State.heard]
  rw [State.hearing, hheard]
  rfl

/-- Where the line has come to nothing, its end of a bit time changes nothing. -/
theorem takeLineEnd_of_not {s : State} (h : s.lineEnds = false) : takeLineEnd s = s := by
  simp only [State.lineEnds, Bool.or_eq_false_iff] at h
  simp [takeLineEnd, h.1, h.2]

/-- The line comes to nothing outside a hold while the arrival in progress goes on. -/
theorem lineEnds_of_going {s : State} (hr : s.line.receiver.ended = false) (hh : s.line.hold = false) : s.lineEnds = false := by
  simp [State.lineEnds, State.releaseDue, hr, hh]

/-- With no frame ending, and nothing that the line has come to, a bit time ends with the step of slot time. -/
theorem endBit_of_line {s : State} (hs : takeSent s = s) (hl : s.lineEnds = false) : endBit s = takeLineEnd (stepTimer s) := by
  simp [endBit, hs, hl]

/-! ## The end of a slot (R16, R23, R27) -/

/-- A change of one place of a list depends on what stands there alone. -/
theorem modify_eq_modify_const {α : Type} (l : List α) (k : Nat) (f : α → α) (d : α) :
    l.modify k f = l.modify k fun _ => f (l.getD k d) := by
  apply List.ext_getElem?
  intro i
  rw [List.getElem?_modify, List.getElem?_modify]
  split
  · next h =>
    subst h
    cases hk : l[k]? with
    | none => rfl
    | some x => simp [List.getD_eq_getElem?_getD, hk]
  · rfl

/-- The slot's end, with the record as it ends and whether its silence reaches the limit. -/
theorem passSlot_eq {s : State} (hstate : s.ctl.state ≠ .off) (hdue : s.due = Due.none) :
    passSlot s
      = { s with
          line :=
            { s.line with
              lost := s.line.lost.map fun x => if x.slot = s.slot.counter then { x with slotEnded := true } else x }
          slot :=
            { s.slot with
              timer := 0, counter := (s.slot.counter + 1) % s.ctl.config.slots
              map := s.slot.map.modify s.slot.counter fun _ => (s.slotAt s.slot.counter).atEnd }
          due :=
            { Due.none with
              silence := if (s.slotAt s.slot.counter).silenceReached then some s.slot.counter else none
              boundary := (s.slot.counter + 1) % s.ctl.config.slots == 0, start := true } } := by
  simp only [passSlot, if_neg hstate, State.modDue, State.modSlot, State.modLine, State.modSlotAt, State.slotAt, hdue]
  rw [← modify_eq_modify_const]

/-- A record of no owner shifts its activity flags, and no silence is counted. -/
theorem atEnd_of_no_owner {r : SlotRecord} (h : r.state.owner? = none) :
    r.atEnd = { r with activityLast := r.activityThis, activityThis := false } ∧ r.silenceReached = false := by
  cases hs : r.state <;> simp_all [SlotRecord.atEnd, SlotRecord.silenceReached, SlotState.owner?]

/-- A HEARD record at the end of its slot, with its owner's frame and without it. -/
theorem atEnd_of_heard {r : SlotRecord} {o n : Nat} (h : r.state = .heard o n) :
    (r.ownerHeard = true → r.atEnd = { r with activityLast := r.activityThis, activityThis := false, ownerHeard := false }
        ∧ r.silenceReached = false)
      ∧ (r.ownerHeard = false → n < 2 →
          r.atEnd = { r with activityLast := r.activityThis, activityThis := false, state := .heard o (n + 1) }
            ∧ r.silenceReached = false)
      ∧ (r.ownerHeard = false → 2 ≤ n →
          r.atEnd = { r with activityLast := r.activityThis, activityThis := false } ∧ r.silenceReached = true) := by
  refine ⟨fun ho => ?_, fun ho hn => ?_, fun ho hn => ?_⟩
  · simp [SlotRecord.atEnd, SlotRecord.silenceReached, h, ho]
  · simp [SlotRecord.atEnd, SlotRecord.silenceReached, h, ho, Config.silenceLimit, hn]
  · simp [SlotRecord.atEnd, SlotRecord.silenceReached, h, ho, Config.silenceLimit, hn]

/-- Settles O44. -/
theorem endOfSlotPassesOn : Obligations.EndOfSlotPassesOn := by
  intro s level hquiet htx hhold hno hended row line later
  have hrow : exec row s = .next (finish (takeLineEnd (stepTimer (s.hearing level)))) := by
    have hh : (s.hearing level).line.hold = false := (measure_hold level s.line).trans hhold
    have ht : (s.hearing level).line.tx = none := by
      rw [← htx]
      exact measure_tx level s.line
    rw [row_of_quiet (by rfl) hquiet, hearBit_of_noHold hno, readBack_of_none ht,
      endBit_of_line (takeSent_of_none ht) (lineEnds_of_going hended hh)]
  have gives (t : State) (hstep : stepTimer (s.hearing level) = t) (hr : t.line.receiver = s.heard level) (hh : t.line.hold = false)
      (he : t.raised = []) : Gives row s t := by
    refine ⟨_, hrow, ?_⟩
    rw [hstep, takeLineEnd_of_not (lineEnds_of_going (hr ▸ hended) hh), finish_visible _ he]
  have hold : line.hold = false := (measure_hold level s.line).trans hhold
  refine ⟨fun hoff => gives later ?_ rfl hold hquiet.2.1, fun hon htimer => ?_⟩
  · simp [stepTimer, State.hearing, later, State.afterBit, hoff, pastBeginning, State.modUnit, line]
  · intro k next r shifted passed
    have hdue := due_of_nothing hquiet.2.2.1
    have ends {ended : SlotRecord} {silence : Option Nat} (h1 : r.atEnd = ended)
        (h2 : (if r.silenceReached then some k else none) = silence) : Gives row s (passed ended silence) := by
      refine gives _ ?_ rfl hold hquiet.2.1
      have hstep : stepTimer (s.hearing level) = passSlot (s.hearing level) :=
        (if_neg hon).trans (if_pos htimer)
      rw [hstep, passSlot_eq (s := s.hearing level) hon hdue, ← h1, ← h2]
      simp only [passed, ← measure_lost level s.line]
      rfl
    refine ⟨fun h => ?_, fun o n h => ⟨fun ho => ?_, fun ho hn => ?_, fun ho hn => ?_⟩⟩
    · obtain ⟨hend, hreach⟩ := atEnd_of_no_owner h
      exact ends hend (by simp [hreach])
    · obtain ⟨hend, hreach⟩ := (atEnd_of_heard h).1 ho
      exact ends hend (by simp [hreach])
    · obtain ⟨hend, hreach⟩ := (atEnd_of_heard h).2.1 ho hn
      exact ends hend (by simp [hreach])
    · obtain ⟨hend, hreach⟩ := (atEnd_of_heard h).2.2 ho hn
      exact ends hend (by simp [hreach])

end Sys2Proof.Machine

namespace Sys2Proof.Machine

/-! ## Frames as bytes (R5, R6, R10): each reader reads what is written, and nothing else -/

/-- A reader and a writer of one kind of value: what is written before other bytes is read, with those left; and what is read was written. -/
def Reads {α : Type} (read : List Byte → Option (α × List Byte)) (write : α → List Byte) (good : α → Prop) : Prop :=
  ∀ l x rest, read l = some (x, rest) ↔ good x ∧ l = write x ++ rest

/-! ### Numbers and codes -/

theorem toNat_byteN {n : Nat} (h : n < 256) : (byteN n).toNat = n := by
  rw [byteN, BitVec.toNat_ofNat]
  exact Nat.mod_eq_of_lt h

theorem byteN_toNat (b : Byte) : byteN b.toNat = b := by simp [byteN]

theorem width_ofNat_iff {n : Nat} {w : Width} : Width.ofNat? n = some w ↔ n = w.bits := by
  constructor
  · unfold Width.ofNat?
    split <;> rintro ⟨⟩ <;> rfl
  · rintro rfl
    cases w <;> rfl

theorem format_ofNat_iff {n : Nat} {f : Format} : Format.ofNat? n = some f ↔ n = f.code := by
  constructor
  · unfold Format.ofNat?
    split <;> rintro ⟨⟩ <;> rfl
  · rintro rfl
    cases f <;> rfl

theorem direction_ofNat_iff {n : Nat} {d : Direction} : Direction.ofNat? n = some d ↔ n = d.code := by
  constructor
  · unfold Direction.ofNat?
    split <;> rintro ⟨⟩ <;> rfl
  · rintro rfl
    cases d <;> rfl

theorem requestKind_ofNat_iff {n : Nat} {k : RequestKind} : RequestKind.ofNat? n = some k ↔ n = k.code := by
  constructor
  · unfold RequestKind.ofNat?
    split <;> rintro ⟨⟩ <;> rfl
  · rintro rfl
    cases k <;> rfl

theorem outcome_ofNat_iff {n : Nat} {o : AnswerOutcome} : AnswerOutcome.ofNat? n = some o ↔ n = o.code := by
  constructor
  · unfold AnswerOutcome.ofNat?
    split <;> rintro ⟨⟩ <;> rfl
  · rintro rfl
    cases o <;> rfl

/-- A byte that reads as a number below 256 is that number's byte. -/
theorem toNat_eq_iff {b : Byte} {n : Nat} (h : n < 256) : b.toNat = n ↔ b = byteN n :=
  ⟨fun hb => by rw [← hb, byteN_toNat], fun hb => by rw [hb, toNat_byteN h]⟩

theorem Width.bits_lt (w : Width) : w.bits < 256 := by cases w <;> decide
theorem Format.code_lt (f : Format) : f.code < 256 := by cases f <;> decide
theorem Direction.code_lt (d : Direction) : d.code < 256 := by cases d <;> decide
theorem RequestKind.code_lt (k : RequestKind) : k.code < 256 := by cases k <;> decide
theorem AnswerOutcome.code_lt (o : AnswerOutcome) : o.code < 256 := by cases o <;> decide

/-! ### Words and characters -/

/-- A word is its four bytes, the most significant first. -/
theorem word_of_bytes (w : Word) : byteOf w 3 ++ byteOf w 2 ++ byteOf w 1 ++ byteOf w 0 = w := by
  apply BitVec.eq_of_getLsbD_eq
  intro i hi
  simp only [byteOf, BitVec.getLsbD_append, BitVec.getLsbD_extractLsb']
  interval_cases i <;> rfl

theorem wordBytes_append (a b c d : Byte) : wordBytes (a ++ b ++ c ++ d) = [a, b, c, d] := by
  simp only [wordBytes, List.cons.injEq, and_true]
  refine ⟨?_, ?_, ?_, ?_⟩ <;>
  · apply BitVec.eq_of_getLsbD_eq
    intro i hi
    simp only [byteOf, BitVec.getLsbD_append, BitVec.getLsbD_extractLsb']
    interval_cases i <;> simp

theorem reads_word : Reads readWord wordBytes fun _ => True := by
  intro l w rest
  constructor
  · unfold readWord
    split
    · rintro ⟨⟩
      exact ⟨trivial, by rw [wordBytes_append]; rfl⟩
    · exact fun h => by simp at h
  · rintro ⟨-, rfl⟩
    simp only [wordBytes, List.cons_append, List.nil_append, readWord, word_of_bytes]

/-- Characters as they are written: their number, then themselves. -/
abbrev charBytes (cs : List Byte) : List Byte := byteN cs.length :: cs

theorem reads_chars {limit : Nat} (h : limit < 256) : Reads (readChars limit) charBytes fun cs => cs.length ≤ limit := by
  intro l cs rest
  constructor
  · unfold readChars
    split
    · next n tail =>
      split
      · next hn =>
        rintro ⟨⟩
        have hlen : (tail.take n.toNat).length = n.toNat := List.length_take_of_le hn.2
        refine ⟨hlen.trans_le hn.1, ?_⟩
        rw [charBytes, hlen, byteN_toNat, List.cons_append, List.take_append_drop]
      · exact fun h => by simp at h
    · exact fun h => by simp at h
  · rintro ⟨hl, rfl⟩
    have hn : (byteN cs.length).toNat = cs.length := toNat_byteN (by omega)
    simp [readChars, hn, hl]

/-! ### Sections -/

/-- The descriptors that a frame may carry (R6). -/
def Descriptor.carried (d : Descriptor) : Prop :=
  ¬(d.width = .w1 ∧ d.format = .signed) ∧ d.name.length ≤ 8 ∧ d.unit.length ≤ 4

theorem reads_descriptor : Reads readDescriptor descriptorBytes Descriptor.carried := by
  intro l d rest
  constructor
  · unfold readDescriptor
    split
    · next w f dir tail =>
      simp only [Option.bind_eq_bind, Option.bind_eq_some_iff, width_ofNat_iff, format_ofNat_iff, direction_ofNat_iff]
      rintro ⟨width, hw, format, hf, direction, hd, h⟩
      split at h
      · simp at h
      · next hsigned =>
        simp only [Option.bind_eq_some_iff, Prod.exists, reads_word _ _ _, reads_chars (show 8 < 256 by decide) _ _ _,
          reads_chars (show 4 < 256 by decide) _ _ _] at h
        obtain ⟨low, t1, ⟨-, rfl⟩, high, t2, ⟨-, rfl⟩, name, t3, ⟨hname, rfl⟩, unit, t4, ⟨hunit, rfl⟩, ⟨⟩⟩ := h
        rw [toNat_eq_iff width.bits_lt] at hw
        rw [toNat_eq_iff format.code_lt] at hf
        rw [toNat_eq_iff direction.code_lt] at hd
        exact ⟨⟨hsigned, hname, hunit⟩, by simp [descriptorBytes, hw, hf, hd]⟩
    · exact fun h => by simp at h
  · rintro ⟨⟨hsigned, hname, hunit⟩, rfl⟩
    obtain ⟨width, format, direction, low, high, name, unit⟩ := d
    have word (w : Word) (r : List Byte) : readWord (wordBytes w ++ r) = some (w, r) := (reads_word _ _ _).mpr ⟨trivial, rfl⟩
    have chars (n : Nat) (hn : n < 256) (cs r : List Byte) (h : cs.length ≤ n) :
        readChars n (byteN cs.length :: (cs ++ r)) = some (cs, r) := (reads_chars hn _ _ _).mpr ⟨h, rfl⟩
    simp only [descriptorBytes, List.cons_append, List.nil_append, List.append_assoc, readDescriptor,
      toNat_byteN width.bits_lt, toNat_byteN format.code_lt, toNat_byteN direction.code_lt, width_ofNat_iff.mpr rfl,
      format_ofNat_iff.mpr rfl, direction_ofNat_iff.mpr rfl, Option.bind_eq_bind, Option.bind_some, if_neg hsigned, word,
      chars 8 (by decide) name _ hname, chars 4 (by decide) unit _ hunit]

theorem reads_request : Reads readRequest requestBytes RequestSection.wellFormed := by
  intro l r rest
  constructor
  · unfold readRequest
    split
    · next t g k i tail =>
      simp only [Option.bind_eq_bind, Option.bind_eq_some_iff, requestKind_ofNat_iff]
      rintro ⟨kind, hk, h⟩
      rw [toNat_eq_iff kind.code_lt] at hk
      split at h
      · next hranges =>
        obtain ⟨ht, hg, hi⟩ := hranges
        cases kind with
        | writePoint =>
          simp only [Option.bind_eq_some_iff, Prod.exists, reads_word _ _ _] at h
          obtain ⟨v, t1, ⟨-, rfl⟩, ⟨⟩⟩ := h
          exact ⟨⟨ht, hg, hi, by simp⟩, by simp [requestBytes, byteN_toNat, hk]⟩
        | readEntry =>
          obtain ⟨⟩ := h
          exact ⟨⟨ht, hg, hi, by simp⟩, by simp [requestBytes, byteN_toNat, hk]⟩
        | readPoint =>
          obtain ⟨⟩ := h
          exact ⟨⟨ht, hg, hi, by simp⟩, by simp [requestBytes, byteN_toNat, hk]⟩
      · simp at h
    · exact fun h => by simp at h
  · rintro ⟨⟨ht, hg, hi, hv⟩, rfl⟩
    obtain ⟨tag, target, kind, index, value⟩ := r
    simp only at ht hg hi hv
    have ranges : (byteN tag).toNat ≤ 15 ∧ (byteN target).toNat ≤ 32 ∧ (byteN index).toNat ≤ 31 := by
      simp only [toNat_byteN (show tag < 256 by omega), toNat_byteN (show target < 256 by omega),
        toNat_byteN (show index < 256 by omega)]
      exact ⟨ht, hg, hi⟩
    have word (w : Word) (r : List Byte) : readWord (wordBytes w ++ r) = some (w, r) := (reads_word _ _ _).mpr ⟨trivial, rfl⟩
    simp only [requestBytes, List.cons_append, List.nil_append, readRequest, toNat_byteN kind.code_lt,
      requestKind_ofNat_iff.mpr rfl, Option.bind_eq_bind, Option.bind_some, if_pos ranges]
    simp only [toNat_byteN (show tag < 256 by omega), toNat_byteN (show target < 256 by omega),
        toNat_byteN (show index < 256 by omega)]
    cases kind <;> cases value <;> simp_all

theorem readContent_value {kind : RequestKind} {outcome : AnswerOutcome}
    (h : (kind = .readPoint ∧ outcome = .ok) ∨ (kind = .writePoint ∧ (outcome = .ok ∨ outcome = .outOfRange))) (l : List Byte) :
    readContent kind outcome l = (readWord l).map fun (v, rest) => (.value v, rest) := by
  rcases h with ⟨rfl, rfl⟩ | ⟨rfl, rfl | rfl⟩ <;> rfl

theorem readContent_nothing {kind : RequestKind} {outcome : AnswerOutcome}
    (h : (kind = .readPoint ∧ outcome = .noPoint) ∨ (kind = .writePoint ∧ (outcome = .noPoint ∨ outcome = .notAccepted)))
    (l : List Byte) : readContent kind outcome l = some (.nothing, l) := by
  rcases h with ⟨rfl, rfl⟩ | ⟨rfl, rfl | rfl⟩ <;> rfl

theorem reads_content (kind : RequestKind) (outcome : AnswerOutcome) :
    Reads (readContent kind outcome) contentBytes fun c => c.wellFormed kind outcome := by
  intro l c rest
  constructor
  · unfold readContent
    split
    · simp only [Option.map_eq_some_iff, Prod.exists, Prod.mk.injEq, reads_descriptor _ _ _]
      rintro ⟨d, t, ⟨hd, rfl⟩, rfl, rfl⟩
      exact ⟨⟨rfl, rfl, hd⟩, rfl⟩
    · split
      · next n tail =>
        split
        · next hn =>
          rintro ⟨⟩
          exact ⟨⟨rfl, rfl, hn⟩, by simp [contentBytes, byteN_toNat]⟩
        · exact fun h => by simp at h
      · exact fun h => by simp at h
    all_goals simp only [Option.map_eq_some_iff, Prod.exists, Prod.mk.injEq, Option.some.injEq, reduceCtorEq, false_implies,
      reads_word _ _ _]
    case h_3 | h_5 | h_8 =>
      rintro ⟨v, t, ⟨-, rfl⟩, rfl, rfl⟩
      exact ⟨by simp [Content.wellFormed], rfl⟩
    case h_4 | h_6 | h_7 =>
      rintro ⟨rfl, rfl⟩
      exact ⟨by simp [Content.wellFormed], rfl⟩
  · rintro ⟨h, rfl⟩
    cases c with
    | descriptor d =>
      obtain ⟨rfl, rfl, hd⟩ := h
      have hr : readDescriptor (descriptorBytes d ++ rest) = some (d, rest) := (reads_descriptor _ _ _).mpr ⟨hd, rfl⟩
      simp [readContent, contentBytes, hr]
    | count n =>
      obtain ⟨rfl, rfl, hn⟩ := h
      simp [readContent, contentBytes, toNat_byteN (show n < 256 by omega), hn]
    | value v =>
      have hr : readWord (wordBytes v ++ rest) = some (v, rest) := (reads_word _ _ _).mpr ⟨trivial, rfl⟩
      simp [readContent_value h, contentBytes, hr]
    | nothing => simp [readContent_nothing h, contentBytes]

theorem reads_answer : Reads readAnswer answerBytes AnswerSection.wellFormed := by
  intro l a rest
  constructor
  · unfold readAnswer
    split
    · next t g k i o tail =>
      simp only [Option.bind_eq_bind, Option.bind_eq_some_iff, requestKind_ofNat_iff, outcome_ofNat_iff]
      rintro ⟨kind, hk, outcome, ho, h⟩
      rw [toNat_eq_iff kind.code_lt] at hk
      rw [toNat_eq_iff outcome.code_lt] at ho
      split at h
      · next hranges =>
        simp only [Option.bind_eq_some_iff, Prod.exists, reads_content _ _ _ _ _] at h
        obtain ⟨content, t1, ⟨hc, rfl⟩, ⟨⟩⟩ := h
        obtain ⟨ht, hg1, hg2, hi⟩ := hranges
        exact ⟨⟨ht, hg1, hg2, hi, hc⟩, by simp [answerBytes, byteN_toNat, hk, ho]⟩
      · simp at h
    · exact fun h => by simp at h
  · rintro ⟨⟨ht, hg1, hg2, hi, hc⟩, rfl⟩
    obtain ⟨tag, requester, kind, index, outcome, content⟩ := a
    simp only at ht hg1 hg2 hi hc
    have htag : (byteN tag).toNat = tag := toNat_byteN (by omega)
    have hreq : (byteN requester).toNat = requester := toNat_byteN (by omega)
    have hindex : (byteN index).toNat = index := toNat_byteN (by omega)
    have hcontent : readContent kind outcome (contentBytes content ++ rest) = some (content, rest) :=
      (reads_content _ _ _ _ _).mpr ⟨hc, rfl⟩
    simp only [answerBytes, List.cons_append, List.nil_append, readAnswer, toNat_byteN kind.code_lt, toNat_byteN outcome.code_lt,
      requestKind_ofNat_iff.mpr rfl, outcome_ofNat_iff.mpr rfl, Option.bind_eq_bind, Option.bind_some, htag, hreq, hindex,
      if_pos (show tag ≤ 15 ∧ 1 ≤ requester ∧ requester ≤ 32 ∧ index ≤ 31 from ⟨ht, hg1, hg2, hi⟩), hcontent]

/-- The bytes of a section that may be left out. -/
def optBytes {α : Type} (write : α → List Byte) (o : Option α) : List Byte := o.elim [] write

theorem readIf_iff {α : Type} {read : List Byte → Option (α × List Byte)} {write : α → List Byte} {good : α → Prop}
    (h : Reads read write good) {present : Bool} {l rest : List Byte} {o : Option α} :
    readIf present read l = some (o, rest) ↔ o.isSome = present ∧ (∀ x, o = some x → good x) ∧ l = optBytes write o ++ rest := by
  cases present with
  | false =>
    simp only [readIf, Bool.false_eq_true, if_false, Option.some.injEq, Prod.mk.injEq, Option.isSome_eq_false_iff, Option.isNone_iff_eq_none]
    constructor
    · rintro ⟨rfl, rfl⟩
      exact ⟨rfl, by simp, rfl⟩
    · rintro ⟨rfl, -, rfl⟩
      exact ⟨rfl, rfl⟩
  | true =>
    simp only [readIf, if_true, Option.map_eq_some_iff, Prod.exists, Prod.mk.injEq, h _ _ _]
    constructor
    · rintro ⟨x, t, ⟨hx, rfl⟩, rfl, rfl⟩
      exact ⟨rfl, by simpa using hx, rfl⟩
    · rintro ⟨ho, hgood, rfl⟩
      obtain ⟨x, rfl⟩ := Option.isSome_iff_exists.mp ho
      exact ⟨x, rest, ⟨hgood x rfl, rfl⟩, rfl, rfl⟩

/-! ### The frame -/

/-- A frame's bytes without its CRC. -/
def frameBody (f : Frame) : List Byte :=
  f.kind.byte :: byteN f.source :: byteN f.slot :: byteN f.plan :: f.sequence :: byteN f.cond.code
    :: byteN (bit f.request.isSome + 2 * bit f.answer.isSome) :: byteN f.data.length
    :: (optBytes requestBytes f.request ++ (optBytes answerBytes f.answer ++ f.data))

theorem frameBytes_eq (f : Frame) : frameBytes f = withCrc (frameBody f) := by
  obtain ⟨kind, source, slot, plan, sequence, cond, request, answer, data⟩ := f
  cases request <;> cases answer <;> simp [frameBytes, frameBody, optBytes]

/-- The frames that bytes can carry in a plan of any SLOTS and rate (R5, R6, R10). -/
structure Frame.carried (f : Frame) : Prop where
  source_pos : 1 ≤ f.source
  source_le : f.source ≤ 32
  slot_lt : f.slot < 256
  plan_lt : f.plan < 256
  data_le : f.data.length ≤ 48
  claim : f.kind = .claimFrame → f.request = none ∧ f.answer = none ∧ f.data = []
  request : ∀ r, f.request = some r → r.wellFormed
  answer : ∀ a, f.answer = some a → a.wellFormed

theorem kind_ofByte_iff {b : Byte} {k : FrameKind} : FrameKind.ofByte? b = some k ↔ b = k.byte := by
  constructor
  · unfold FrameKind.ofByte?
    split
    · next h => rintro ⟨⟩; exact h
    · split
      · next h => rintro ⟨⟩; exact h
      · exact fun h => by simp at h
  · rintro rfl
    cases k <;> rfl

/-- The flags byte says which sections are there. -/
theorem flags_iff {b : Byte} {request answer : Bool} :
    b = byteN (bit request + 2 * bit answer) ↔ b.toNat < 4 ∧ b.getLsbD 0 = request ∧ b.getLsbD 1 = answer := by
  constructor
  · rintro rfl
    cases request <;> cases answer <;> decide
  · rintro ⟨hb, rfl, rfl⟩
    obtain ⟨n, hn, rfl⟩ : ∃ n, n < 4 ∧ b = byteN n := ⟨b.toNat, hb, (byteN_toNat b).symm⟩
    interval_cases n <;> rfl

/-- The condition byte holds the three flags. -/
theorem cond_iff {b : Byte} {c : Cond} : b = byteN c.code ↔ b.toNat < 8 ∧ Cond.ofByte b = c := by
  constructor
  · rintro rfl
    obtain ⟨x, y, z⟩ := c
    cases x <;> cases y <;> cases z <;> decide
  · rintro ⟨hb, rfl⟩
    obtain ⟨n, hn, rfl⟩ : ∃ n, n < 8 ∧ b = byteN n := ⟨b.toNat, hb, (byteN_toNat b).symm⟩
    interval_cases n <;> rfl

theorem flags_eq_zero_iff {request answer : Bool} :
    byteN (bit request + 2 * bit answer) = 0 ↔ request = false ∧ answer = false := by
  cases request <;> cases answer <;> decide

/-- The reader of frames reads what was written, and nothing else (R10). -/
theorem readFrame_iff {l : List Byte} {f : Frame} : readFrame l = some f ↔ f.carried ∧ l = frameBody f := by
  constructor
  · unfold readFrame
    split
    · next k source slot plan sequence cond flags dataLength tail =>
      simp only [Option.bind_eq_bind, Option.bind_eq_some_iff, kind_ofByte_iff]
      rintro ⟨kind, rfl, h⟩
      split at h
      · next hranges =>
        obtain ⟨hs1, hs2, hcond, hflags, hdata, hclaim⟩ := hranges
        simp only [Option.bind_eq_some_iff, Prod.exists, readIf_iff reads_request, readIf_iff reads_answer] at h
        obtain ⟨request, t1, ⟨hr, hrgood, rfl⟩, answer, t2, ⟨ha, hagood, rfl⟩, h⟩ := h
        split at h
        · next hlen =>
          obtain ⟨⟩ := h
          have hflagsEq := flags_iff.mpr ⟨hflags, hr.symm, ha.symm⟩
          refine ⟨⟨hs1, hs2, slot.isLt, plan.isLt, hlen ▸ hdata, fun hk => ?_, hrgood, hagood⟩, ?_⟩
          · obtain ⟨h0, hd0⟩ := hclaim hk
            rw [hflagsEq, flags_eq_zero_iff] at h0
            exact ⟨by simpa using h0.1, by simpa using h0.2, List.length_eq_zero_iff.mp (by rw [hlen, hd0]; rfl)⟩
          · simp only [frameBody, byteN_toNat, ← hflagsEq, hlen, ← cond_iff.mpr ⟨hcond, rfl⟩]
        · simp at h
      · simp at h
    · exact fun h => by simp at h
  · rintro ⟨hf, rfl⟩
    obtain ⟨kind, source, slot, plan, sequence, cond, request, answer, data⟩ := f
    obtain ⟨hs1, hs2, hslot, hplan, hdata, hclaim, hrequest, hanswer⟩ := hf
    simp only at hs1 hs2 hslot hplan hdata hclaim hrequest hanswer
    obtain ⟨hflags, hr, ha⟩ := flags_iff.mp (rfl : byteN (bit request.isSome + 2 * bit answer.isSome) = _)
    obtain ⟨hcond, hcondEq⟩ := cond_iff.mp (rfl : byteN cond.code = _)
    have hsource : (byteN source).toNat = source := toNat_byteN (by omega)
    have hlen : (byteN data.length).toNat = data.length := toNat_byteN (by omega)
    have hclaimed : kind = .claimFrame → byteN (bit request.isSome + 2 * bit answer.isSome) = 0 ∧ byteN data.length = 0 := by
      rintro rfl
      obtain ⟨rfl, rfl, rfl⟩ := hclaim rfl
      exact ⟨rfl, rfl⟩
    have readRequest' := (readIf_iff reads_request (l := optBytes requestBytes request ++ (optBytes answerBytes answer ++ data))).mpr
      ⟨hr.symm, hrequest, rfl⟩
    have readAnswer' := (readIf_iff reads_answer (l := optBytes answerBytes answer ++ data)).mpr ⟨ha.symm, hanswer, rfl⟩
    simp only [frameBody, readFrame, kind_ofByte_iff.mpr rfl, Option.bind_eq_bind, Option.bind_some, hsource, hlen,
      toNat_byteN hslot, toNat_byteN hplan, hcondEq, readRequest', readAnswer', if_true]
    exact if_pos ⟨hs1, hs2, hcond, hflags, hdata, hclaimed⟩

/-! ### The class of bytes (R9) -/

/-- The bytes that follow a body are its CRC exactly when they are the CRC's two bytes (R7). -/
theorem withCrc_eq_iff (body : List Byte) (x y : Byte) : withCrc body = body ++ [x, y] ↔ crc body = x ++ y := by
  simp only [withCrc, List.append_cancel_left_eq, List.cons.injEq, and_true]
  constructor
  · rintro ⟨rfl, rfl⟩
    apply BitVec.eq_of_getLsbD_eq
    intro i hi
    simp only [BitVec.getLsbD_append, BitVec.getLsbD_extractLsb']
    interval_cases i <;> rfl
  · intro h
    rw [h]
    constructor <;>
    · apply BitVec.eq_of_getLsbD_eq
      intro i hi
      simp only [BitVec.getLsbD_append, BitVec.getLsbD_extractLsb']
      interval_cases i <;> simp

/-- The class of bytes by what reads from them, with their CRC right (R9). -/
def readClass (c : Configuration) : Option Frame → ArrivalClass × Option Frame
  | none => (.format, none)
  | some f =>
    if f.plan ≠ c.planMark then (.planMismatch, some f)
    else if c.slots ≤ f.slot then (.format, none)
    else (.good, some f)

/-- The class of a body with two bytes behind it. -/
theorem classify_append (c : Configuration) (body : List Byte) (x y : Byte) (missing : Bool) :
    classify c (body ++ [x, y]) missing
      = if missing = true ∨ body.length < 8 ∨ 94 < body.length then (.format, none)
        else if crc body ≠ x ++ y then (.badCrc, none)
        else readClass c (readFrame body) := by
  have htake : (body ++ [x, y]).take ((body ++ [x, y]).length - 2) = body := by simp
  have hlengths : (missing = true ∨ (body ++ [x, y]).length < Config.minFrameBytes ∨ Config.maxFrameBytes < (body ++ [x, y]).length)
      ↔ (missing = true ∨ body.length < 8 ∨ 94 < body.length) := by
    refine or_congr Iff.rfl ?_
    simp only [List.length_append, List.length_cons, List.length_nil, Config.minFrameBytes, Config.maxFrameBytes]
    omega
  simp only [classify, htake, hlengths, ne_eq, withCrc_eq_iff]
  cases readFrame body <;> rfl

/-! ### Lengths -/

theorem requestBytes_length_le (r : RequestSection) : (requestBytes r).length ≤ 8 := by
  unfold requestBytes
  split <;> simp [wordBytes]

theorem answerBytes_length_le {a : AnswerSection} (h : a.wellFormed) : (answerBytes a).length ≤ 30 := by
  obtain ⟨-, -, -, -, hc⟩ := h
  obtain ⟨tag, requester, kind, index, outcome, content⟩ := a
  cases content with
  | descriptor d =>
    obtain ⟨-, -, -, hname, hunit⟩ := hc
    simp [answerBytes, contentBytes, descriptorBytes, wordBytes]
    omega
  | count n => simp [answerBytes, contentBytes]
  | value v => simp [answerBytes, contentBytes, wordBytes]
  | nothing => simp [answerBytes, contentBytes]

/-- A frame has between 10 and 96 bytes, CRC included (R5). -/
theorem frameBody_length {f : Frame} (h : f.carried) : 8 ≤ (frameBody f).length ∧ (frameBody f).length ≤ 94 := by
  obtain ⟨kind, source, slot, plan, sequence, cond, request, answer, data⟩ := f
  have hr : (optBytes requestBytes request).length ≤ 8 := by
    cases request with
    | none => simp [optBytes]
    | some r => exact requestBytes_length_le r
  have ha : (optBytes answerBytes answer).length ≤ 30 := by
    cases answer with
    | none => simp [optBytes]
    | some a => exact answerBytes_length_le (h.answer a rfl)
  have hd := h.data_le
  simp only [frameBody, List.length_cons, List.length_append] at hd ⊢
  omega

/-- Settles O42. -/
theorem framesReadAsTheyWereSent : Obligations.FramesReadAsTheyWereSent := by
  rintro c f ⟨-, hslots1, hslots2, hrate, -, -⟩ ⟨hs1, hs2, hslot, hplan, hdata, hclaim, hrequest, hanswer⟩
  have hcarried : f.carried := by
    refine ⟨hs1, hs2, by omega, ?_, hdata, hclaim, hrequest, hanswer⟩
    rw [hplan, Configuration.planMark]
    omega
  obtain ⟨hmin, hmax⟩ := frameBody_length hcarried
  rw [frameBytes_eq, withCrc, classify_append, if_neg (by simp; omega),
    if_neg (not_not_intro ((withCrc_eq_iff _ _ _).mp rfl)), readFrame_iff.mpr ⟨hcarried, rfl⟩]
  rw [readClass, if_neg (not_not_intro hplan), if_neg (by omega)]

end Sys2Proof.Machine

namespace Sys2Proof.Machine

/-! ## What makes bytes a frame, byte by byte (R6, R10) -/

/-- The number in a byte of a section; a byte beyond it reads 0. -/
def byteAt (l : List Byte) (j : Nat) : Nat := (l.getD j 0).toNat

@[simp] theorem byteAt_zero (b : Byte) (l : List Byte) : byteAt (b :: l) 0 = b.toNat := rfl

@[simp] theorem byteAt_succ (b : Byte) (l : List Byte) (j : Nat) : byteAt (b :: l) (j + 1) = byteAt l j := rfl

theorem byteAt_drop (l : List Byte) (n j : Nat) : byteAt (l.drop n) j = byteAt l (n + j) := by
  simp [byteAt, List.getD_eq_getElem?_getD]

theorem byteAt_append (cs l : List Byte) (j : Nat) : byteAt (cs ++ l) (cs.length + j) = byteAt l j := by
  rw [← byteAt_drop, List.drop_left]

/-- Four bytes are a word's. -/
theorem exists_word {l : List Byte} (h : 4 ≤ l.length) : ∃ w t, l = wordBytes w ++ t := by
  obtain ⟨a, l, rfl⟩ := List.exists_cons_of_length_pos (show 0 < l.length by omega)
  obtain ⟨b, l, rfl⟩ := List.exists_cons_of_length_pos (show 0 < l.length by simp at h; omega)
  obtain ⟨c, l, rfl⟩ := List.exists_cons_of_length_pos (show 0 < l.length by simp at h; omega)
  obtain ⟨d, l, rfl⟩ := List.exists_cons_of_length_pos (show 0 < l.length by simp at h; omega)
  exact ⟨a ++ b ++ c ++ d, l, by rw [wordBytes_append]; rfl⟩

/-- A length byte with that many bytes behind it are characters. -/
theorem exists_chars {l : List Byte} (h : 1 + byteAt l 0 ≤ l.length) :
    ∃ cs t, cs.length = byteAt l 0 ∧ l = charBytes cs ++ t := by
  obtain ⟨n, l, rfl⟩ := List.exists_cons_of_length_pos (show 0 < l.length by omega)
  simp only [byteAt_zero, List.length_cons] at h ⊢
  have hlen : (l.take n.toNat).length = n.toNat := List.length_take_of_le (by omega)
  exact ⟨l.take n.toNat, l.drop n.toNat, hlen, by rw [charBytes, hlen, byteN_toNat, List.cons_append, List.take_append_drop]⟩

/-! ### The request section -/

/-- The bytes that a request section takes. -/
def requestRoom (l : List Byte) : Nat := if byteAt l 2 = 3 then 8 else 4

/-- A field of the request section is out of its range. -/
def requestBad (l : List Byte) : Prop := 15 < byteAt l 0 ∨ 32 < byteAt l 1 ∨ byteAt l 2 = 0 ∨ 3 < byteAt l 2 ∨ 31 < byteAt l 3

theorem request_of_carried {r : RequestSection} (h : r.wellFormed) (t : List Byte) :
    ¬requestBad (requestBytes r ++ t) ∧ requestRoom (requestBytes r ++ t) = (requestBytes r).length := by
  obtain ⟨tag, target, kind, index, value⟩ := r
  obtain ⟨ht, hg, hi, hv⟩ := h
  simp only at ht hg hi hv
  have htag : (byteN tag).toNat = tag := toNat_byteN (by omega)
  have htarget : (byteN target).toNat = target := toNat_byteN (by omega)
  have hindex : (byteN index).toNat = index := toNat_byteN (by omega)
  have hkind := toNat_byteN kind.code_lt
  constructor
  · simp only [requestBad, requestBytes, List.cons_append, List.nil_append, byteAt_zero, byteAt_succ, htag, htarget, hindex, hkind]
    have : 1 ≤ kind.code ∧ kind.code ≤ 3 := by cases kind <;> decide
    omega
  · simp only [requestRoom, requestBytes, List.cons_append, List.nil_append, byteAt_zero, byteAt_succ, hkind]
    cases kind <;> cases value <;> simp_all [wordBytes, RequestKind.code]

theorem exists_kind {n : Nat} (h1 : n ≠ 0) (h2 : n ≤ 3) : ∃ k : RequestKind, n = k.code := by
  interval_cases n
  · exact absurd rfl h1
  · exact ⟨.readEntry, rfl⟩
  · exact ⟨.readPoint, rfl⟩
  · exact ⟨.writePoint, rfl⟩

theorem exists_outcome {n : Nat} (h : n ≤ 4) : ∃ o : AnswerOutcome, n = o.code := by
  interval_cases n
  · exact ⟨.ok, rfl⟩
  · exact ⟨.catalogueEnd, rfl⟩
  · exact ⟨.noPoint, rfl⟩
  · exact ⟨.notAccepted, rfl⟩
  · exact ⟨.outOfRange, rfl⟩

theorem exists_request {l : List Byte} (h : ¬requestBad l) (hlen : requestRoom l ≤ l.length) :
    ∃ r t, r.wellFormed ∧ l = requestBytes r ++ t := by
  have hroom : 4 ≤ requestRoom l := by unfold requestRoom; split <;> omega
  obtain ⟨t, l, rfl⟩ := List.exists_cons_of_length_pos (show 0 < l.length by omega)
  obtain ⟨g, l, rfl⟩ := List.exists_cons_of_length_pos (show 0 < l.length by simp at hlen; omega)
  obtain ⟨k, l, rfl⟩ := List.exists_cons_of_length_pos (show 0 < l.length by simp at hlen; omega)
  obtain ⟨i, l, rfl⟩ := List.exists_cons_of_length_pos (show 0 < l.length by simp at hlen; omega)
  simp only [requestBad, byteAt_zero, byteAt_succ, not_or, Nat.not_lt] at h
  obtain ⟨ht, hg, hk0, hk3, hi⟩ := h
  obtain ⟨kind, hk⟩ := exists_kind hk0 hk3
  simp only [requestRoom, byteAt_zero, byteAt_succ, hk, List.length_cons] at hlen
  have written (v : Option Word) (hv : v.isSome = true ↔ kind = .writePoint) (rest : List Byte)
      (hrest : l = optBytes wordBytes v ++ rest) :
      ∃ r t', r.wellFormed ∧ t :: g :: k :: i :: l = requestBytes r ++ t' :=
    ⟨⟨t.toNat, g.toNat, kind, i.toNat, v⟩, rest, ⟨ht, hg, hi, hv⟩, by
      simp only [requestBytes, byteN_toNat, ← hk, hrest]
      cases v <;> rfl⟩
  cases kind with
  | writePoint =>
    obtain ⟨w, rest, hrest⟩ := exists_word (l := l) (by simpa [RequestKind.code] using hlen)
    exact written (some w) (by simp) rest hrest
  | readEntry => exact written none (by simp) l rfl
  | readPoint => exact written none (by simp) l rfl

/-! ### The answer section -/

/-- The bytes that an answer's content takes, by the codes of its kind and outcome and the lengths of a descriptor's name and unit; none for a
pair that R6's table does not hold. -/
def contentRoom (kind outcome name unit : Nat) : Option Nat :=
  match kind, outcome with
  | 1, 0 => some (13 + name + unit)
  | 1, 1 => some 1
  | 2, 0 => some 4
  | 2, 2 => some 0
  | 3, 0 => some 4
  | 3, 2 => some 0
  | 3, 3 => some 0
  | 3, 4 => some 4
  | _, _ => none

/-- A field of a descriptor is out of its range. -/
def descriptorBad (l : List Byte) : Prop :=
  (byteAt l 0 ≠ 1 ∧ byteAt l 0 ≠ 8 ∧ byteAt l 0 ≠ 16 ∧ byteAt l 0 ≠ 32) ∨ 2 < byteAt l 1 ∨ (byteAt l 0 = 1 ∧ byteAt l 1 = 1)
    ∨ byteAt l 2 = 0 ∨ 3 < byteAt l 2 ∨ 8 < byteAt l 11 ∨ 4 < byteAt l (12 + byteAt l 11)

/-- What the bytes of a descriptor read as, one by one. -/
theorem byteAt_descriptor {d : Descriptor} (h : d.carried) (t : List Byte) :
    let l := descriptorBytes d ++ t
    byteAt l 0 = d.width.bits ∧ byteAt l 1 = d.format.code ∧ byteAt l 2 = d.direction.code ∧ byteAt l 11 = d.name.length
      ∧ byteAt l (12 + byteAt l 11) = d.unit.length := by
  obtain ⟨-, hname, hunit⟩ := h
  have hn : (byteN d.name.length).toNat = d.name.length := toNat_byteN (by omega)
  have hu : (byteN d.unit.length).toNat = d.unit.length := toNat_byteN (by omega)
  have hunit' : byteAt (d.name ++ byteN d.unit.length :: (d.unit ++ t)) d.name.length = d.unit.length :=
    (byteAt_append d.name (byteN d.unit.length :: (d.unit ++ t)) 0).trans hu
  simp only [descriptorBytes, wordBytes, List.cons_append, List.nil_append, List.append_assoc, byteAt_zero, byteAt_succ, hn,
    Nat.add_comm 12, hunit', toNat_byteN d.width.bits_lt, toNat_byteN d.format.code_lt, toNat_byteN d.direction.code_lt, and_self]

theorem descriptor_of_carried {d : Descriptor} (h : d.carried) (t : List Byte) :
    let l := descriptorBytes d ++ t
    ¬descriptorBad l ∧ (descriptorBytes d).length = 13 + byteAt l 11 + byteAt l (12 + byteAt l 11) := by
  intro l
  obtain ⟨hw, hf, hdir, hn, hu⟩ := byteAt_descriptor h t
  obtain ⟨hsigned, hname, hunit⟩ := h
  simp only [l, descriptorBad, hu]
  simp only [hw, hf, hdir, hn]
  constructor
  · rintro (hb | hb | hb | hb | hb | hb | hb)
    · cases hwidth : d.width <;> simp [hwidth, Width.bits] at hb
    · cases hformat : d.format <;> simp [hformat, Format.code] at hb
    · apply hsigned
      cases hwidth : d.width <;> cases hformat : d.format <;> simp_all [Width.bits, Format.code]
    · cases hdirection : d.direction <;> simp [hdirection, Direction.code] at hb
    · cases hdirection : d.direction <;> simp [hdirection, Direction.code] at hb
    · omega
    · omega
  · simp [descriptorBytes, wordBytes]
    omega

theorem exists_descriptor {l : List Byte} (h : ¬descriptorBad l)
    (hlen : 13 + byteAt l 11 + byteAt l (12 + byteAt l 11) ≤ l.length) : ∃ d t, d.carried ∧ l = descriptorBytes d ++ t := by
  obtain ⟨w, l, rfl⟩ := List.exists_cons_of_length_pos (show 0 < l.length by omega)
  obtain ⟨f, l, rfl⟩ := List.exists_cons_of_length_pos (show 0 < l.length by simp at hlen; omega)
  obtain ⟨d, l, rfl⟩ := List.exists_cons_of_length_pos (show 0 < l.length by simp at hlen; omega)
  obtain ⟨low, l, rfl⟩ := exists_word (l := l) (by simp at hlen; omega)
  obtain ⟨high, l, rfl⟩ := exists_word (l := l) (by simp [wordBytes] at hlen; omega)
  have hname : byteAt (w :: f :: d :: (wordBytes low ++ (wordBytes high ++ l))) 11 = byteAt l 0 := rfl
  simp only [descriptorBad, hname] at h hlen
  have hlen' : 2 + byteAt l 0 ≤ l.length := by
    simp [wordBytes] at hlen
    omega
  obtain ⟨name, t, hn, rfl⟩ := exists_chars (show 1 + byteAt l 0 ≤ l.length by omega)
  have hunit : byteAt (w :: f :: d :: (wordBytes low ++ (wordBytes high ++ (charBytes name ++ t)))) (12 + name.length) = byteAt t 0 := by
    rw [Nat.add_comm]
    exact byteAt_append name t 0
  rw [← hn, hunit] at h hlen
  obtain ⟨unit, t, hu, rfl⟩ := exists_chars (l := t) (by simp [wordBytes] at hlen; omega)
  rw [← hu] at h
  simp only [byteAt_zero, byteAt_succ, not_or, Nat.not_lt] at h
  obtain ⟨hw, hf, hsigned, hd0, hd3, hname8, hunit4⟩ := h
  obtain ⟨width, hwidth⟩ : ∃ width : Width, w.toNat = width.bits := by
    by_cases h1 : w.toNat = 1
    · exact ⟨.w1, h1⟩
    by_cases h8 : w.toNat = 8
    · exact ⟨.w8, h8⟩
    by_cases h16 : w.toNat = 16
    · exact ⟨.w16, h16⟩
    by_cases h32 : w.toNat = 32
    · exact ⟨.w32, h32⟩
    exact absurd ⟨h1, h8, h16, h32⟩ hw
  obtain ⟨format, hformat⟩ : ∃ format : Format, f.toNat = format.code := by
    generalize f.toNat = n at hf
    interval_cases n
    · exact ⟨.unsigned, rfl⟩
    · exact ⟨.signed, rfl⟩
    · exact ⟨.flags, rfl⟩
  obtain ⟨direction, hdirection⟩ : ∃ direction : Direction, d.toNat = direction.code := by
    generalize d.toNat = n at hd0 hd3
    interval_cases n
    · exact absurd rfl hd0
    · exact ⟨.published, rfl⟩
    · exact ⟨.accepted, rfl⟩
    · exact ⟨.both, rfl⟩
  refine ⟨⟨width, format, direction, low, high, name, unit⟩, t, ⟨?_, hname8, hunit4⟩, ?_⟩
  · rintro ⟨rfl, rfl⟩
    exact hsigned ⟨hwidth, hformat⟩
  · simp [descriptorBytes, (toNat_eq_iff width.bits_lt).mp hwidth, (toNat_eq_iff format.code_lt).mp hformat,
      (toNat_eq_iff direction.code_lt).mp hdirection]

theorem content_of_carried {kind : RequestKind} {outcome : AnswerOutcome} {c : Content} (h : c.wellFormed kind outcome)
    (t : List Byte) :
    let l := contentBytes c ++ t
    contentRoom kind.code outcome.code (byteAt l 11) (byteAt l (12 + byteAt l 11)) = some (contentBytes c).length
      ∧ (kind = .readEntry → outcome = .catalogueEnd → byteAt l 0 ≤ 32)
      ∧ (kind = .readEntry → outcome = .ok → ¬descriptorBad l) := by
  cases c with
  | descriptor d =>
    obtain ⟨rfl, rfl, hd⟩ := h
    obtain ⟨hbad, hlen⟩ := descriptor_of_carried hd t
    exact ⟨congrArg some hlen.symm, by simp, fun _ _ => hbad⟩
  | count n =>
    obtain ⟨rfl, rfl, hn⟩ := h
    exact ⟨rfl, fun _ _ => (toNat_byteN (show n < 256 by omega)).trans_le hn, by simp⟩
  | value v => rcases h with ⟨rfl, rfl⟩ | ⟨rfl, rfl | rfl⟩ <;> exact ⟨rfl, by simp, by simp⟩
  | nothing => rcases h with ⟨rfl, rfl⟩ | ⟨rfl, rfl | rfl⟩ <;> exact ⟨rfl, by simp, by simp⟩

theorem exists_content {kind : RequestKind} {outcome : AnswerOutcome} {l : List Byte} {n : Nat}
    (hroom : contentRoom kind.code outcome.code (byteAt l 11) (byteAt l (12 + byteAt l 11)) = some n) (hlen : n ≤ l.length)
    (hcount : kind = .readEntry → outcome = .catalogueEnd → byteAt l 0 ≤ 32)
    (hdescriptor : kind = .readEntry → outcome = .ok → ¬descriptorBad l) :
    ∃ c t, c.wellFormed kind outcome ∧ l = contentBytes c ++ t := by
  have value (h : Content.wellFormed kind outcome (.value 0)) (hn : 4 = n) : ∃ c t, c.wellFormed kind outcome ∧ l = contentBytes c ++ t := by
    obtain ⟨w, t, rfl⟩ := exists_word (l := l) (by omega)
    exact ⟨.value w, t, h, rfl⟩
  have nothing (h : Content.wellFormed kind outcome .nothing) : ∃ c t, c.wellFormed kind outcome ∧ l = contentBytes c ++ t :=
    ⟨.nothing, l, h, rfl⟩
  cases kind with
  | readEntry =>
    cases outcome with
    | ok =>
      obtain rfl := Option.some.inj hroom
      obtain ⟨d, t, hd, rfl⟩ := exists_descriptor (hdescriptor rfl rfl) hlen
      exact ⟨.descriptor d, t, ⟨rfl, rfl, hd⟩, rfl⟩
    | catalogueEnd =>
      obtain rfl := Option.some.inj hroom
      obtain ⟨b, l, rfl⟩ := List.exists_cons_of_length_pos hlen
      exact ⟨.count b.toNat, l, ⟨rfl, rfl, hcount rfl rfl⟩, by simp [contentBytes, byteN_toNat]⟩
    | noPoint => exact nomatch hroom
    | notAccepted => exact nomatch hroom
    | outOfRange => exact nomatch hroom
  | readPoint =>
    cases outcome with
    | ok => exact value (.inl ⟨rfl, rfl⟩) (Option.some.inj hroom)
    | noPoint => exact nothing (.inl ⟨rfl, rfl⟩)
    | catalogueEnd => exact nomatch hroom
    | notAccepted => exact nomatch hroom
    | outOfRange => exact nomatch hroom
  | writePoint =>
    cases outcome with
    | ok => exact value (.inr ⟨rfl, .inl rfl⟩) (Option.some.inj hroom)
    | outOfRange => exact value (.inr ⟨rfl, .inr rfl⟩) (Option.some.inj hroom)
    | noPoint => exact nothing (.inr ⟨rfl, .inl rfl⟩)
    | notAccepted => exact nothing (.inr ⟨rfl, .inr rfl⟩)
    | catalogueEnd => exact nomatch hroom

/-- The bytes that the content of an answer section takes. -/
def answerRoom (l : List Byte) : Option Nat := contentRoom (byteAt l 2) (byteAt l 4) (byteAt l 16) (byteAt l (17 + byteAt l 16))

/-- A field of the answer section is out of its range, or its outcome is none of its kind's. -/
def answerBad (l : List Byte) : Prop :=
  15 < byteAt l 0 ∨ byteAt l 1 = 0 ∨ 32 < byteAt l 1 ∨ byteAt l 2 = 0 ∨ 3 < byteAt l 2 ∨ 31 < byteAt l 3 ∨ 4 < byteAt l 4
    ∨ answerRoom l = none ∨ (byteAt l 2 = 1 ∧ byteAt l 4 = 1 ∧ 32 < byteAt l 5)

/-- The answer section carries a descriptor with a field out of its range. -/
def answerDescriptorBad (l : List Byte) : Prop :=
  byteAt l 2 = 1 ∧ byteAt l 4 = 0
    ∧ ((byteAt l 5 ≠ 1 ∧ byteAt l 5 ≠ 8 ∧ byteAt l 5 ≠ 16 ∧ byteAt l 5 ≠ 32) ∨ 2 < byteAt l 6 ∨ (byteAt l 5 = 1 ∧ byteAt l 6 = 1)
      ∨ byteAt l 7 = 0 ∨ 3 < byteAt l 7 ∨ 8 < byteAt l 16 ∨ 4 < byteAt l (17 + byteAt l 16))

/-- The descriptor of an answer section begins at its sixth byte. -/
theorem answerDescriptorBad_iff (t g k i o : Byte) (l : List Byte) :
    answerDescriptorBad (t :: g :: k :: i :: o :: l) ↔ k.toNat = 1 ∧ o.toNat = 0 ∧ descriptorBad l := by
  simp only [answerDescriptorBad, descriptorBad, byteAt_zero, byteAt_succ, Nat.add_comm 17, Nat.add_comm 12]

theorem answerRoom_cons (t g k i o : Byte) (l : List Byte) :
    answerRoom (t :: g :: k :: i :: o :: l) = contentRoom k.toNat o.toNat (byteAt l 11) (byteAt l (12 + byteAt l 11)) := by
  simp only [answerRoom, byteAt_zero, byteAt_succ, Nat.add_comm 17, Nat.add_comm 12]

theorem answer_of_carried {a : AnswerSection} (h : a.wellFormed) (t : List Byte) :
    let l := answerBytes a ++ t
    ¬answerBad l ∧ ¬answerDescriptorBad l ∧ (answerBytes a).length = 5 + (answerRoom l).getD 0 := by
  obtain ⟨tag, requester, kind, index, outcome, content⟩ := a
  obtain ⟨ht, hg1, hg2, hi, hc⟩ := h
  simp only at ht hg1 hg2 hi hc
  obtain ⟨hroom, hcount, hdescriptor⟩ := content_of_carried hc t
  have htag : (byteN tag).toNat = tag := toNat_byteN (by omega)
  have hrequester : (byteN requester).toNat = requester := toNat_byteN (by omega)
  have hindex : (byteN index).toNat = index := toNat_byteN (by omega)
  have hkind := toNat_byteN kind.code_lt
  have houtcome := toNat_byteN outcome.code_lt
  have hkinds : 1 ≤ kind.code ∧ kind.code ≤ 3 := by cases kind <;> decide
  have houtcomes : outcome.code ≤ 4 := by cases outcome <;> decide
  have kind_one : kind.code = 1 → kind = .readEntry := by cases kind <;> simp [RequestKind.code]
  have outcome_zero : outcome.code = 0 → outcome = .ok := by cases outcome <;> simp [AnswerOutcome.code]
  have outcome_one : outcome.code = 1 → outcome = .catalogueEnd := by cases outcome <;> simp [AnswerOutcome.code]
  simp only [answerBytes, List.cons_append, List.nil_append, answerDescriptorBad_iff, answerBad, answerRoom_cons, hkind, houtcome,
    hroom, byteAt_zero, byteAt_succ, htag, hrequester, hindex]
  refine ⟨?_, fun ⟨hk, ho, hbad⟩ => hdescriptor (kind_one hk) (outcome_zero ho) hbad, by simp; omega⟩
  rintro (hb | hb | hb | hb | hb | hb | hb | hb | ⟨hk, ho, hb⟩)
  case inr.inr.inr.inr.inr.inr.inr.inl => exact nomatch hb
  case inr.inr.inr.inr.inr.inr.inr.inr => exact absurd (hcount (kind_one hk) (outcome_one ho)) (by omega)
  all_goals omega

theorem exists_answer {l : List Byte} (h : ¬answerBad l) (hd : ¬answerDescriptorBad l) (hlen : 5 + (answerRoom l).getD 0 ≤ l.length) :
    ∃ a t, a.wellFormed ∧ l = answerBytes a ++ t := by
  obtain ⟨t, l, rfl⟩ := List.exists_cons_of_length_pos (show 0 < l.length by omega)
  obtain ⟨g, l, rfl⟩ := List.exists_cons_of_length_pos (show 0 < l.length by simp at hlen; omega)
  obtain ⟨k, l, rfl⟩ := List.exists_cons_of_length_pos (show 0 < l.length by simp at hlen; omega)
  obtain ⟨i, l, rfl⟩ := List.exists_cons_of_length_pos (show 0 < l.length by simp at hlen; omega)
  obtain ⟨o, l, rfl⟩ := List.exists_cons_of_length_pos (show 0 < l.length by simp at hlen; omega)
  rw [answerDescriptorBad_iff] at hd
  simp only [answerBad, answerRoom_cons, byteAt_zero, byteAt_succ, not_or, Nat.not_lt, ← ne_eq, Option.ne_none_iff_exists'] at h
  obtain ⟨ht, hg0, hg2, hk0, hk3, hi, ho4, ⟨n, hroom⟩, hcount⟩ := h
  obtain ⟨kind, hk⟩ := exists_kind hk0 hk3
  obtain ⟨outcome, ho⟩ := exists_outcome ho4
  rw [answerRoom_cons, hroom] at hlen
  rw [hk, ho] at hroom hcount hd
  obtain ⟨c, rest, hc, rfl⟩ := exists_content hroom (by simp at hlen; omega)
    (by rintro rfl rfl; exact not_lt.mp fun hb => hcount ⟨rfl, rfl, hb⟩) (by rintro rfl rfl hb; exact hd ⟨rfl, rfl, hb⟩)
  exact ⟨⟨t.toNat, g.toNat, kind, i.toNat, outcome, c⟩, rest, ⟨ht, by simp only; omega, hg2, hi, hc⟩, by
    simp [answerBytes, byteN_toNat, ← hk, ← ho]⟩

end Sys2Proof.Machine

namespace Sys2Proof.Machine

/-! ## The class of bytes, condition by condition (R9, R10) -/

/-- A condition of R10 on the bytes of a frame without its CRC: on its header, its sections or its length. -/
def formatBad (kind source cond flags dataLength : Byte) (rest : List Byte) : Prop :=
  let asked := if flags.getLsbD 0 = true then requestRoom rest else 0
  let tail := rest.drop asked
  let answered := if flags.getLsbD 1 = true then 5 + (answerRoom tail).getD 0 else 0
  (kind ≠ 0x30 ∧ kind ≠ 0x38) ∨ source = 0 ∨ 32 < source.toNat ∨ 7 < cond.toNat ∨ 3 < flags.toNat
    ∨ (kind = 0x38 ∧ (flags ≠ 0 ∨ dataLength ≠ 0)) ∨ 48 < dataLength.toNat ∨ (flags.getLsbD 0 = true ∧ requestBad rest)
    ∨ (flags.getLsbD 1 = true ∧ answerBad tail) ∨ (flags.getLsbD 1 = true ∧ answerDescriptorBad tail)
    ∨ rest.length ≠ asked + answered + dataLength.toNat

/-- The bytes that a request section takes, or none where there is none. -/
theorem requestRoom_optBytes {request : Option RequestSection} (h : ∀ r, request = some r → r.wellFormed) (t : List Byte) :
    (if request.isSome = true then requestRoom (optBytes requestBytes request ++ t) else 0)
      = (optBytes requestBytes request).length := by
  cases request with
  | none => rfl
  | some r => exact (request_of_carried (h r rfl) t).2

/-- The bytes that an answer section takes, or none where there is none. -/
theorem answerRoom_optBytes {answer : Option AnswerSection} (h : ∀ a, answer = some a → a.wellFormed) (t : List Byte) :
    (if answer.isSome = true then 5 + (answerRoom (optBytes answerBytes answer ++ t)).getD 0 else 0)
      = (optBytes answerBytes answer).length := by
  cases answer with
  | none => rfl
  | some a => exact (answer_of_carried (h a rfl) t).2.2.symm

/-- The bytes of a frame meet no condition of R10. -/
theorem not_formatBad_of_carried {f : Frame} (h : f.carried) :
    ¬formatBad f.kind.byte (byteN f.source) (byteN f.cond.code) (byteN (bit f.request.isSome + 2 * bit f.answer.isSome))
      (byteN f.data.length) (optBytes requestBytes f.request ++ (optBytes answerBytes f.answer ++ f.data)) := by
  obtain ⟨kind, source, slot, plan, sequence, cond, request, answer, data⟩ := f
  obtain ⟨hs1, hs2, -, -, hdata, hclaim, hrequest, hanswer⟩ := h
  simp only at hs1 hs2 hdata hclaim hrequest hanswer ⊢
  obtain ⟨hflags, hask, hans⟩ := flags_iff.mp (rfl : byteN (bit request.isSome + 2 * bit answer.isSome) = _)
  obtain ⟨hcond, -⟩ := cond_iff.mp (rfl : byteN cond.code = _)
  have hsource : (byteN source).toNat = source := toNat_byteN (by omega)
  have hlen : (byteN data.length).toNat = data.length := toNat_byteN (by omega)
  simp only [formatBad, hask, hans, requestRoom_optBytes hrequest, List.drop_left, answerRoom_optBytes hanswer, hsource, hlen]
  rintro (⟨h1, h2⟩ | h | h | h | h | ⟨h, hb⟩ | h | ⟨hr, h⟩ | ⟨ha, h⟩ | ⟨ha, h⟩ | h)
  · cases kind
    · exact h1 rfl
    · exact h2 rfl
  · rw [h] at hsource
    simp at hsource
    omega
  · omega
  · omega
  · omega
  · cases kind with
    | slotFrame => exact absurd h (by decide)
    | claimFrame =>
      obtain ⟨rfl, rfl, rfl⟩ := hclaim rfl
      rcases hb with hb | hb <;> exact hb rfl
  · omega
  · obtain ⟨r, rfl⟩ := Option.isSome_iff_exists.mp hr
    exact (request_of_carried (hrequest r rfl) _).1 h
  · obtain ⟨a, rfl⟩ := Option.isSome_iff_exists.mp ha
    exact (answer_of_carried (hanswer a rfl) _).1 h
  · obtain ⟨a, rfl⟩ := Option.isSome_iff_exists.mp ha
    exact (answer_of_carried (hanswer a rfl) _).2.1 h
  · simp [Nat.add_assoc] at h

/-- A section that is there when its flag is set, found in the bytes. -/
theorem exists_optBytes {α : Type} {write : α → List Byte} {good : α → Prop} {present : Bool} {l : List Byte}
    (h : present = true → ∃ x t, good x ∧ l = write x ++ t) :
    ∃ o t, o.isSome = present ∧ (∀ x, o = some x → good x) ∧ l = optBytes write o ++ t := by
  cases present with
  | false => exact ⟨none, l, rfl, by simp, rfl⟩
  | true =>
    obtain ⟨x, t, hx, hl⟩ := h rfl
    exact ⟨some x, t, rfl, by simpa using hx, hl⟩

/-- Bytes that meet no condition of R10 are those of a frame. -/
theorem exists_frame {kind source slot plan sequence cond flags dataLength : Byte} {rest : List Byte}
    (h : ¬formatBad kind source cond flags dataLength rest) :
    ∃ f : Frame, f.carried ∧ kind :: source :: slot :: plan :: sequence :: cond :: flags :: dataLength :: rest = frameBody f
      ∧ f.source = source.toNat ∧ f.slot = slot.toNat ∧ f.plan = plan.toNat := by
  simp only [formatBad, not_or, Nat.not_lt] at h
  obtain ⟨hkind, hs0, hs32, hcond, hflags, hclaim, hdata, hreq, hans, hdesc, hlen⟩ := h
  rw [not_not] at hlen
  obtain ⟨request, t, hr, hrgood, rfl⟩ := exists_optBytes (write := requestBytes) (good := RequestSection.wellFormed)
    (present := flags.getLsbD 0) (l := rest) fun hp => by
      rw [if_pos hp] at hlen
      exact exists_request (fun hb => hreq ⟨hp, hb⟩) (by omega)
  simp only [← hr, requestRoom_optBytes hrgood, List.drop_left] at hans hdesc hlen
  rw [List.length_append] at hlen
  obtain ⟨answer, data, ha, hagood, rfl⟩ := exists_optBytes (write := answerBytes) (good := AnswerSection.wellFormed)
    (present := flags.getLsbD 1) (l := t) fun hp => by
      rw [if_pos hp] at hlen
      exact exists_answer (fun hb => hans ⟨hp, hb⟩) (fun hb => hdesc ⟨hp, hb⟩) (by omega)
  have hdlen : data.length = dataLength.toNat := by
    rw [← ha, answerRoom_optBytes hagood, List.length_append] at hlen
    omega
  obtain ⟨k, hk⟩ : ∃ k : FrameKind, kind = k.byte := by
    by_cases h1 : kind = 0x30
    · exact ⟨.slotFrame, h1⟩
    · exact ⟨.claimFrame, not_not.mp fun h2 => hkind ⟨h1, h2⟩⟩
  have hflagsEq := flags_iff.mpr ⟨Nat.lt_succ_of_le hflags, hr.symm, ha.symm⟩
  have hsource : source.toNat ≠ 0 := fun h0 => hs0 (BitVec.eq_of_toNat_eq h0)
  refine ⟨⟨k, source.toNat, slot.toNat, plan.toNat, sequence, Cond.ofByte cond, request, answer, data⟩,
    ⟨by simp only; omega, hs32, slot.isLt, plan.isLt, hdlen.trans_le hdata, fun hc => ?_, hrgood, hagood⟩, ?_, rfl, rfl, rfl⟩
  · obtain rfl : k = .claimFrame := hc
    obtain ⟨h0, hd0⟩ : flags = 0 ∧ dataLength = 0 :=
      ⟨not_not.mp fun hb => hclaim ⟨hk, .inl hb⟩, not_not.mp fun hb => hclaim ⟨hk, .inr hb⟩⟩
    rw [hflagsEq, flags_eq_zero_iff] at h0
    exact ⟨by simpa using h0.1, by simpa using h0.2, List.length_eq_zero_iff.mp (by rw [hdlen, hd0]; rfl)⟩
  · simp only [frameBody, byteN_toNat, ← hflagsEq, hdlen, ← cond_iff.mpr ⟨Nat.lt_succ_of_le hcond, rfl⟩, hk]

/-! ## Arbitration (R3, R5) -/

/-- Levels sent alike decide nothing. -/
theorem losesTo_append (p xs ys : List Level) : losesTo (p ++ xs) (p ++ ys) = losesTo xs ys := by
  induction p with
  | nil => rfl
  | cons l p ih => cases l <;> exact ih

/-- The first bit in which two frames differ decides, whatever comes behind it. -/
theorem losesTo_of_differ (p xs ys : List Level) :
    losesTo (p ++ .recessive :: xs) (p ++ .dominant :: ys) = true ∧ losesTo (p ++ .dominant :: ys) (p ++ .recessive :: xs) = false := by
  simp only [losesTo_append]
  exact ⟨rfl, rfl⟩

theorem losesTo_self (l : List Level) : losesTo l l = false := by
  have h := losesTo_append l [] []
  simpa [losesTo] using h

/-- Of two bytes that differ, the levels part at one bit, in which the greater one sends recessive. -/
theorem byteLevels_differ {a b : Nat} (ha : a ≤ 32) (h : b < a) :
    ∃ p x y, byteLevels (byteN a) = p ++ .recessive :: x ∧ byteLevels (byteN b) = p ++ .dominant :: y := by
  have parts : ∀ a : Fin 33, ∀ b : Fin 33, b < a → ∃ n : Fin 10,
      (byteLevels (byteN a)).take n = (byteLevels (byteN b)).take n ∧ (byteLevels (byteN a))[n.val]? = some .recessive
        ∧ (byteLevels (byteN b))[n.val]? = some .dominant := by decide +kernel
  obtain ⟨n, htake, hx, hy⟩ := parts ⟨a, by omega⟩ ⟨b, by omega⟩ h
  have split {l : List Level} {v : Level} (hl : l[n.val]? = some v) : l = l.take n ++ v :: l.drop (n + 1) := by
    obtain ⟨hn, rfl⟩ := List.getElem?_eq_some_iff.mp hl
    rw [List.cons_getElem_drop_succ, List.take_append_drop]
  exact ⟨_, _, _, split hx, htake ▸ split hy⟩

/-- The levels of a frame begin with its kind and its source. -/
theorem frameLevels_frameBytes (f : Frame) :
    ∃ rest, frameLevels (frameBytes f) = byteLevels f.kind.byte ++ (byteLevels (byteN f.source) ++ rest) := by
  rw [frameBytes_eq, frameBody]
  exact ⟨_, rfl⟩

/-- A claim frame loses to a slot frame. -/
theorem claim_loses {f g : Frame} (hf : f.kind = .claimFrame) (hg : g.kind = .slotFrame) :
    losesTo (frameLevels (frameBytes f)) (frameLevels (frameBytes g)) = true
      ∧ losesTo (frameLevels (frameBytes g)) (frameLevels (frameBytes f)) = false := by
  obtain ⟨x, hx⟩ := frameLevels_frameBytes f
  obtain ⟨y, hy⟩ := frameLevels_frameBytes g
  rw [hx, hy, hf, hg]
  exact ⟨rfl, rfl⟩

/-- Of two frames of one kind that of the higher source number loses. -/
theorem higher_source_loses {f g : Frame} (hs : f.source ≤ 32) (hkind : f.kind = g.kind) (hsource : g.source < f.source) :
    losesTo (frameLevels (frameBytes f)) (frameLevels (frameBytes g)) = true
      ∧ losesTo (frameLevels (frameBytes g)) (frameLevels (frameBytes f)) = false := by
  obtain ⟨x, hx⟩ := frameLevels_frameBytes f
  obtain ⟨y, hy⟩ := frameLevels_frameBytes g
  obtain ⟨p, u, v, hp, hq⟩ := byteLevels_differ hs hsource
  rw [hx, hy, hkind, losesTo_append, losesTo_append, hp, hq]
  simpa using losesTo_of_differ p (u ++ x) (v ++ y)

/-- Settles O43. -/
theorem crcLengthPlanMarkAndArbitration : Obligations.CrcLengthPlanMarkAndArbitration := by
  refine ⟨⟨⟨by decide +kernel, fun c body x y missing => ⟨fun h => ?_, fun hm h8 h94 hcrc => ?_⟩⟩, ?_, ?_⟩, ?_⟩
  · rw [classify_append, if_pos h]
  · rw [classify_append, if_neg (by simp [hm]; omega), if_pos hcrc]
  · intro c kind source slot plan sequence cond flags dataLength rest x y body asks answers q asked a content answered
      badRequest badAnswer badDescriptor bad hlen hcrc
    have hbad : bad ↔ formatBad kind source cond flags dataLength rest := by
      simp only [formatBad, requestBad, answerBad, answerDescriptorBad, answerRoom, requestRoom, byteAt_drop]
      exact Iff.rfl
    have hclass : classify c (body ++ [x, y]) false = readClass c (readFrame body) := by
      rw [classify_append, if_neg (by simp [body] at hlen ⊢; omega), if_neg (not_not_intro hcrc)]
    rw [hbad]
    refine ⟨fun h => ?_, fun h => ?_⟩
    · have hnone : readFrame body = none := by
        rw [Option.eq_none_iff_forall_ne_some]
        intro f hf
        obtain ⟨hcarried, hbody⟩ := readFrame_iff.mp hf
        simp only [body, frameBody, List.cons.injEq] at hbody
        obtain ⟨rfl, rfl, -, -, -, rfl, rfl, rfl, rfl⟩ := hbody
        exact not_formatBad_of_carried hcarried h
      rw [hclass, hnone, readClass]
    · obtain ⟨f, hcarried, hbody, hsource, hslot, hplan⟩ := exists_frame (slot := slot) (plan := plan) (sequence := sequence) h
      refine ⟨f, ?_, hsource, hslot, hplan, ?_⟩
      · rw [frameBytes_eq, ← hbody]
        exact (withCrc_eq_iff _ _ _).mpr hcrc
      · rw [hclass, readFrame_iff.mpr ⟨hcarried, hbody⟩, ← hplan, ← hslot, readClass]
  · rintro c d ⟨-, hc8, hc64, hcr, -⟩ ⟨-, hd8, hd64, hdr, -⟩
    have apart : (c.slots - 1) + 64 * c.rate = (d.slots - 1) + 64 * d.rate → c.rate = d.rate := by
      intro h
      have hdiv := congrArg (· / 64) h
      omega
    refine ⟨rfl, ?_, ?_⟩ <;> simp only [Configuration.planMark] <;> omega
  · intro f g hf1 hf2 hg1 hg2
    exact ⟨claim_loses, higher_source_loses hf2, losesTo_self _⟩

end Sys2Proof.Machine

namespace Sys2Proof.Machine

/-! ## The line unit in one bit time (R1 to R4) -/

@[simp] theorem measure_sequence (level : Level) (l : LineUnit) : (l.measure level).sequence = l.sequence := by rw [measure_frame]

@[simp] theorem measure_arbitrationLosses (level : Level) (l : LineUnit) :
    (l.measure level).arbitrationLosses = l.arbitrationLosses := by rw [measure_frame]

@[simp] theorem measure_holds (level : Level) (l : LineUnit) : (l.measure level).holds = l.holds := by rw [measure_frame]

/-- A frame stands assembled and not yet begun. -/
abbrev LineUnit.waitsToSend (l : LineUnit) : Bool := l.tx.any (!·.phase.isSending)

/-- Slot time comes to no event where it came to none before, and no frame has come to stand assembled. -/
theorem slotTimeEnds_of_line {s : State} {l : LineUnit} (h : s.slotTimeEnds = false)
    (hl : l.waitsToSend = true → s.line.waitsToSend = true) : ({ pastBeginning s with line := l } : State).slotTimeEnds = false := by
  simp only [State.slotTimeEnds, Bool.and_eq_false_iff, Bool.or_eq_false_iff] at h ⊢
  rcases h with h | ⟨h1, h2⟩
  · exact .inl h
  · refine .inr ⟨h1, h2.imp id fun hw => ?_⟩
    exact Bool.eq_false_of_not_eq_true fun hc => by simp [hl hc] at hw

/-- Away from its events the step of slot time is that of the timer alone. -/
theorem stepTimer_of_noEvent {s : State} {l : LineUnit} (h : ({ pastBeginning s with line := l } : State).slotTimeEnds = false)
    (level : Level) : stepTimer { pastBeginning s with line := l } = { s.afterBit level with line := l } := by
  rw [stepTimer_of_mid h]
  show (if s.ctl.state = .off then _ else _) = _
  by_cases hoff : s.ctl.state = .off
  · rw [if_pos hoff]
    simp only [State.afterBit, if_pos hoff]
    rfl
  · rw [if_neg hoff]
    simp only [State.afterBit, if_neg hoff]
    rfl

/-- A row of one bit time in which slot time comes to nothing: what the line has come to is taken from the state a bit time later. -/
theorem row_of_bit {s : State} {row : Instr} {level : Level} {l : LineUnit} (hrow : exec row s = passRow [] level s)
    (hmid : s.midSlot) (hno : s.noHold level) (hread : takeSent (readBack level (s.hearing level)) = { pastBeginning s with line := l })
    (hl : l.waitsToSend = true → s.line.waitsToSend = true) :
    exec row s = .next (finish (takeLineEnd { s.afterBit level with line := l })) := by
  have hslot := slotTimeEnds_of_line hmid.2 hl
  rw [row_of_quiet hrow hmid.1, hearBit_of_noHold hno]
  simp only [endBit, hread, hslot, Bool.and_false, Bool.false_eq_true, if_false, stepTimer_of_noEvent hslot level]

/-- With nothing that the line or slot time comes to, a row of one bit time leaves the state a bit time later, with the line unit as it is then. -/
theorem gives_bit {s : State} {row : Instr} {level : Level} {l : LineUnit} (hrow : exec row s = passRow [] level s)
    (hmid : s.midSlot) (hno : s.noHold level) (hread : takeSent (readBack level (s.hearing level)) = { pastBeginning s with line := l })
    (hl : l.waitsToSend = true → s.line.waitsToSend = true) (hreceiver : l.receiver.ended = false)
    (hrelease : l.hold = false ∨ l.recessiveRun < 1024) : Gives row s { s.afterBit level with line := l } := by
  refine ⟨_, row_of_bit hrow hmid hno hread hl, ?_⟩
  rw [takeLineEnd_of_not]
  · exact finish_visible _ hmid.1.2.1
  · simp only [State.lineEnds, State.releaseDue, hreceiver, Bool.false_or, Bool.and_eq_false_iff, decide_eq_false_iff_not]
    exact hrelease.imp id fun h => Nat.not_le.mpr h

/-- With no frame being sent, the line unit only hears. -/
theorem read_of_notSending {s : State} (h : s.txeOn = false) (level : Level) :
    takeSent (readBack level (s.hearing level)) = s.hearing level := by
  have htx : (s.hearing level).line.tx = s.line.tx := measure_tx level s.line
  have hread : readBack level (s.hearing level) = s.hearing level := by
    unfold readBack
    rw [htx]
    cases hx : s.line.tx with
    | none => rfl
    | some x =>
      cases hp : x.phase with
      | assembled => simp [hp]
      | sending k => simp [State.txeOn, hx, hp, TxPhase.isSending] at h
  rw [hread]
  unfold takeSent
  rw [htx]
  cases hx : s.line.tx with
  | none => rfl
  | some x =>
    cases hp : x.phase with
    | assembled => simp [Transmission.allSent, hp]
    | sending k => simp [State.txeOn, hx, hp, TxPhase.isSending] at h

theorem recessiveRun_measure_dominant (l : LineUnit) : (l.measure .dominant).recessiveRun = 0 := by
  unfold LineUnit.measure LineUnit.recessiveRun
  split
  · next h => simp [← h]
  · simp

/-- A waiting receiver takes a dominant level as a start bit after 12 recessive bit times, outside a hold. -/
theorem heard_startBit {s : State} (hr : s.line.receiver = .waiting) (hrxd : s.line.rxd = .recessive) (hrun : 12 ≤ s.line.run)
    (hhold : s.line.hold = false) :
    s.heard .dominant = .inside (Reception.start (if s.ctl.state = .off then none else some s.slot.counter)) := by
  simp [State.heard, hr, Receiver.hear, LineUnit.recessiveRun, hrxd, hrun, hhold, Config.endOfFrameBits]

/-- It takes none sooner, in a dominant run, or in a hold. -/
theorem heard_noStartBit {s : State} (hr : s.line.receiver = .waiting)
    (h : s.line.rxd = .dominant ∨ s.line.run < 12 ∨ s.line.hold = true) : s.heard .dominant = .waiting := by
  have hno : ¬(Level.dominant = .dominant ∧ Config.endOfFrameBits ≤ s.line.recessiveRun ∧ s.line.hold = false) := by
    rintro ⟨-, hrun, hhold⟩
    simp only [LineUnit.recessiveRun, Config.endOfFrameBits] at hrun
    rcases h with h | h | h
    · simp [h] at hrun
    · split at hrun <;> omega
    · simp [h] at hhold
  rw [State.heard, hr]
  exact if_neg hno

/-- The bit read back differs from the bit sent: the frame is LOST (R3). -/
theorem readBack_of_differs {s : State} {x : Transmission} {k : Nat} {level : Level} (hx : s.line.tx = some x)
    (hp : x.phase = .sending k) (hl : x.level ≠ level) : readBack level s = loseTransmission x s := by
  simp only [readBack, hx, hp, if_neg hl]

/-- The bit read back agrees: its bit time has gone out. -/
theorem readBack_of_agrees {s : State} {x : Transmission} {k : Nat} {level : Level} (hx : s.line.tx = some x)
    (hp : x.phase = .sending k) (hl : x.level = level) :
    readBack level s = s.modLine fun l => { l with tx := some { x with phase := .sending (k + 1) } } := by
  simp only [readBack, hx, hp, if_pos hl]

theorem notOwn_ended (r : Receiver) : r.notOwn.ended = r.ended := by cases r <;> rfl

theorem markOwn_ended (r : Receiver) : r.markOwn.ended = r.ended := by cases r <;> rfl

/-- Settles O31. -/
theorem startBitAndArbitrationLoss : Obligations.StartBitAndArbitrationLoss := by
  refine ⟨fun s hmid htxe hr hno => ?_, fun s x k level hmid hx hp hhold hno hended => ?_⟩
  · intro line slot
    have htx : line.tx = s.line.tx := measure_tx .dominant s.line
    have gives {r : Receiver} (hheard : s.heard .dominant = r) (hr : r.ended = false) :
        Gives (.startBitTaken [] .dominant) s { s.afterBit .dominant with line := { line with receiver := r } } := by
      refine gives_bit (by rfl) hmid hno ?_ (fun hw => ?_) hr (.inr ?_)
      · rw [read_of_notSending htxe, State.hearing, hheard]
      · simpa [LineUnit.waitsToSend, htx] using hw
      · exact (recessiveRun_measure_dominant s.line).trans_lt (by omega)
    refine ⟨fun hrxd hrun hhold => gives (heard_startBit hr hrxd hrun hhold) rfl, fun h => ?_⟩
    have hsame : ({ line with receiver := .waiting } : LineUnit) = line := by
      rw [← hr, ← measure_receiver .dominant s.line]
    have hgives := gives (heard_noStartBit hr h) rfl
    rw [hsame] at hgives
    exact hgives
  · intro line winners
    have htx : (s.hearing level).line.tx = some x := (measure_tx level s.line).trans hx
    have hheld : line.hold = false := (measure_hold level s.line).trans hhold
    refine ⟨fun hl => ?_, fun hl hk => ?_⟩
    · refine gives_bit (by rfl) hmid hno ?_ (by simp [LineUnit.waitsToSend]) ?_ (.inl hheld)
      · rw [readBack_of_differs htx hp hl, takeSent_of_none rfl, loseTransmission, ← measure_lost level s.line,
          ← measure_arbitrationLosses level s.line]
        rfl
      · exact (notOwn_ended _).trans hended
    · refine gives_bit (by rfl) hmid hno ?_ (by simp [LineUnit.waitsToSend, TxPhase.isSending]) hended (.inl hheld)
      rw [readBack_of_agrees htx hp hl]
      refine if_neg ?_
      show ¬decide (10 * x.bytes.length ≤ k + 1) = true
      simpa using hk

end Sys2Proof.Machine

namespace Sys2Proof.Machine

/-! ## What a report leaves of the line unit (R21, R52) -/

theorem takePeriods_outsideUnits (s : State) :
    (takePeriods s).outsideUnits = { s with due := { s.due with periods := false } }.outsideUnits := by
  simp only [takePeriods]
  split
  · exact (giveTriggers_outsideUnits ..).trans rfl
  · next h =>
    have hd : s.due.periods = false := Bool.eq_false_of_not_eq_true h
    rw [← hd]

theorem entryOff_outsideImage (s : State) (i : Nat) : (entryOff s i).outsideImage = s.outsideImage := by
  unfold entryOff
  split
  · rfl
  · exact passEntry_outsideImage ..

theorem foldl_entryOff_outsideImage (is : List Nat) (s : State) : (is.foldl entryOff s).outsideImage = s.outsideImage := by
  induction is generalizing s with
  | nil => rfl
  | cons i is ih => rw [List.foldl_cons, ih, entryOff_outsideImage]

@[simp] theorem imageOff_outsideImage (s : State) : (imageOff s).outsideImage = s.outsideImage := by
  rw [imageOff, foldl_entryOff_outsideImage, outsideImage_of_units (collectorOff_outsideUnits _), foldl_entryOff_outsideImage]

@[simp] theorem imageAndRequestsOff_outsidePeers (s : State) : (imageAndRequestsOff s).outsidePeers = s.outsidePeers := by
  unfold imageAndRequestsOff
  split
  · rw [outsidePeers_of_requests (requestsOff_outsideRequests _), outsidePeers_of_image (imageOff_outsideImage _)]
  · rw [outsidePeers_of_image (imageOff_outsideImage _), outsidePeers_of_requests (requestsOff_outsideRequests _)]

/-- Entering OFF leaves of the line unit what its own part says (R52). -/
theorem enterOff_line (cause : Nat) (s : State) : (enterOff cause s).line = (lineOff s).line := by
  have himage := congrArg State.line (imageAndRequestsOff_outsidePeers (stationOff (passStation .off cause (takePeriods s))))
  have hperiods := congrArg State.line (takePeriods_outsideUnits s)
  show (lineOff (imageAndRequestsOff (stationOff (passStation .off cause (takePeriods s))))).line = _
  simp only [lineOff, modLine_line]
  rw [show (imageAndRequestsOff (stationOff (passStation .off cause (takePeriods s)))).line = s.line from himage.trans hperiods]

/-- Everything of the line unit but the frame and the LOST transmissions stands, and no frame comes up. -/
structure LineFrame (s t : State) : Prop where
  same : t.line = { s.line with tx := t.line.tx, lost := t.line.lost }
  none : s.line.tx = none → t.line.tx = none

theorem LineFrame.of_eq {s t : State} (h : t.line = s.line) : LineFrame s t := ⟨by rw [h], fun hn => by rw [h, hn]⟩

theorem LineFrame.trans {s t u : State} (h : LineFrame s t) (h' : LineFrame t u) : LineFrame s u where
  same := by rw [h'.same, h.same]
  none hn := h'.none (h.none hn)

theorem enterOff_lineFrame (cause : Nat) (s : State) : LineFrame s (enterOff cause s) where
  same := by rw [enterOff_line]; rfl
  none h := by rw [enterOff_line]; simp [lineOff, h]

theorem followOwned_lineFrame {s t : State} (h : t.line = s.line) : LineFrame s (followOwned t) := by
  refine (LineFrame.of_eq h).trans ?_
  unfold followOwned
  split
  case h_3 =>
    split
    · exact enterOff_lineFrame 6 t
    · exact .of_eq rfl
  all_goals first
    | exact .of_eq rfl
    | split <;> exact .of_eq rfl

theorem setSlotState_line (k : Nat) (f : SlotRecord → SlotRecord) (s : State) : (setSlotState k f s).line = s.line :=
  (congrArg State.line (setSlotState_outsideMap k f s) :)

theorem giveUpSlot_line (x : Transmission) (winner : Option Nat) (s : State) : (giveUpSlot x winner s).line = s.line := by
  cases winner with
  | none => exact setSlotState_line ..
  | some n => exact setSlotState_line ..

theorem reportToSlots_lineFrame (x : Transmission) (e : TxEnd) (s : State) : LineFrame s (reportToSlots x e s) := by
  unfold reportToSlots
  split
  · unfold reportClaim
    split
    · dsimp only
      split
      · exact .of_eq rfl
      · exact followOwned_lineFrame (s := s) rfl
    · exact .of_eq (giveUpSlot_line ..)
    · exact .of_eq rfl
  · split
    · exact followOwned_lineFrame (setSlotState_line ..)
    · unfold reportOwned
      split
      · exact .of_eq rfl
      · dsimp only
        split
        · exact .of_eq rfl
        · exact followOwned_lineFrame (giveUpSlot_line ..)
      · exact .of_eq rfl
    all_goals exact .of_eq rfl
  · exact .of_eq rfl

theorem requestSent_line (id : Nat) (s : State) : (requestSent id s).line = s.line :=
  (congrArg State.line (requestSent_outsideRequests id s) :)

theorem reportToLists_line (x : Transmission) (e : TxEnd) (s : State) : (reportToLists x e s).line = s.line := by
  unfold reportToLists
  split
  · dsimp only
    cases x.answer <;> cases x.request <;> first | rfl | exact requestSent_line ..
  · rfl
  · rfl

/-- A report leaves everything of the line unit but what entering OFF takes. -/
theorem reportEnd_lineFrame (x : Transmission) (e : TxEnd) (s : State) : LineFrame s (reportEnd x e s) := by
  unfold reportEnd
  split
  · exact (reportToSlots_lineFrame x e s).trans (.of_eq (reportToLists_line ..))
  · exact (LineFrame.of_eq (reportToLists_line ..)).trans (reportToSlots_lineFrame ..)

/-! ## The send point (R4) -/

/-- With a frame assembled, the timer's step to 16 is its send point. -/
theorem stepTimer_of_sendPoint {s : State} {x : Transmission} (hstate : s.ctl.state ≠ .off) (htimer : s.slot.timer = 15)
    (hx : s.line.tx = some x) (hp : x.phase.isSending = false) :
    stepTimer s = beginTransmission x (s.modSlot fun u => { u with timer := u.timer + 1 }) := by
  have hlast : s.slot.timer ≠ Config.lastBit := by rw [htimer]; decide
  have hpoint : s.slot.timer + 1 = Config.sendPoint := by rw [htimer]; decide
  simp only [stepTimer, if_neg hstate, if_neg hlast, modSlot_slot, if_pos hpoint, takeSendPoint, modSlot_line, hx, hp,
    Bool.false_eq_true, if_false]

/-- With the receiver waiting the frame is begun. -/
theorem beginTransmission_of_waiting {s : State} {x : Transmission} (hh : s.line.hold = false) (hr : s.line.receiver = .waiting) :
    beginTransmission x s = s.modLine fun l => { l with tx := some { x with phase := .sending 0 } } := by
  simp only [beginTransmission, hh, Bool.false_eq_true, if_false, hr]

/-- With an arrival in progress it is LOST, and the arrival is the winner's. -/
theorem beginTransmission_of_inside {s : State} {x : Transmission} {r : Reception} (hh : s.line.hold = false)
    (hr : s.line.receiver = .inside r) :
    beginTransmission x s
      = s.modLine fun l =>
          { l with
            tx := none
            receiver := .inside { r with own := false }
            arbitrationLosses := satInc l.arbitrationLosses
            lost := if x.offSince then l.lost else l.lost ++ [x] } := by
  simp only [beginTransmission, hh, Bool.false_eq_true, if_false, hr, loseTransmission, State.modLine, Receiver.notOwn]

/-- Settles O32. -/
theorem sendPointBeginsOrLosesTheFrame : Obligations.SendPointBeginsOrLosesTheFrame := by
  intro s level hquiet htxe hno hended line passed
  have hidle (hends : s.slotTimeEnds = false) (hhold : s.line.hold = false) : Gives (.sendPoint [] level) s passed := by
    refine gives_bit (by rfl) ⟨hquiet, hends⟩ hno (read_of_notSending htxe level) (fun hw => ?_) hended
      (.inl ((measure_hold level s.line).trans hhold))
    rw [← hw]
    show s.line.tx.any _ = (s.line.measure level).tx.any _
    rw [measure_tx]
  refine ⟨fun hoff hhold => hidle (by simp [State.slotTimeEnds, hoff]) hhold, fun hon htimer => ⟨fun htx hhold => ?_, ?_⟩⟩
  · exact hidle (by simp [State.slotTimeEnds, htx, htimer, Config.lastBit]) hhold
  intro x hx
  have hp : x.phase.isSending = false := by simpa [State.txeOn, hx] using htxe
  have htx : line.tx = some x := (measure_tx level s.line).trans hx
  have hheld : line.hold = s.line.hold := measure_hold level s.line
  have hpassed : passed = ({ pastBeginning s with line := line } : State).modSlot fun u => { u with timer := u.timer + 1 } := by
    simp only [passed, State.afterBit, if_neg hon]
    rfl
  have hrow (hl : (s.hearing level).lineEnds = false) :
      exec (.sendPoint [] level) s = .next (finish (takeLineEnd (beginTransmission x passed))) := by
    have hsent := read_of_notSending htxe level
    have hend : endBit (readBack level (s.hearing level)) = takeLineEnd (stepTimer (s.hearing level)) := by
      simp only [endBit, hsent, hl, Bool.false_and, Bool.false_eq_true, if_false]
    rw [row_of_quiet (by rfl) hquiet, hearBit_of_noHold hno, hend,
      stepTimer_of_sendPoint (s := s.hearing level) hon htimer htx hp, hpassed]
    rfl
  have going (hhold : s.line.hold = false) : (s.hearing level).lineEnds = false := lineEnds_of_going hended (hheld.trans hhold)
  have gives (l : LineUnit) (hhold : s.line.hold = false) (hbegin : beginTransmission x passed = { passed with line := l })
      (hr : l.receiver.ended = false) (hh : l.hold = line.hold) :
      Gives (.sendPoint [] level) s { passed with line := l } := by
    refine ⟨_, hrow (going hhold), ?_⟩
    rw [hbegin, takeLineEnd_of_not (lineEnds_of_going hr (hh.trans (hheld.trans hhold)))]
    exact finish_visible _ hquiet.2.1
  refine ⟨fun hhold hw => ?_, fun r hhold hin => ?_, fun hhold hl => ?_⟩
  · exact gives _ hhold ((beginTransmission_of_waiting (s := passed) (hheld.trans hhold) hw).trans rfl) hended rfl
  · refine gives _ hhold ?_ ?_ rfl
    · rw [beginTransmission_of_inside (s := passed) (hheld.trans hhold) hin, ← measure_lost level s.line,
        ← measure_arbitrationLosses level s.line]
      rfl
    · rw [hin] at hended
      exact hended
  · subst hl
    have hnoEnd (t : State) (ht : LineFrame passed t) : t.lineEnds = false := by
      simp only [State.lineEnds, State.releaseDue]
      rw [ht.same]
      have hrun : passed.line.recessiveRun = 0 := recessiveRun_measure_dominant s.line
      simp only [LineUnit.recessiveRun] at hrun ⊢
      simp [hrun, Config.releaseRun, show passed.line.receiver.ended = false from hended]
    have hbegin : beginTransmission x passed = abandonTransmission x passed := by
      rw [beginTransmission, if_pos]
      exact hheld.trans hhold
    have hframe := reportEnd_lineFrame x .abandoned (passed.modLine fun l => { l with tx := none })
    have hdropped : LineFrame passed (passed.modLine fun l => { l with tx := none }) := ⟨rfl, fun _ => rfl⟩
    refine ⟨_, hrow (hnoEnd _ (.of_eq rfl)), ?_⟩
    rw [hbegin, abandonTransmission, takeLineEnd_of_not (hnoEnd _ (hdropped.trans hframe)), finish_frame]
    refine ⟨hframe.none rfl, ?_, ?_⟩
    · exact (congrArg LineUnit.sequence hframe.same).trans (measure_sequence .dominant s.line)
    · exact (congrArg LineUnit.arbitrationLosses hframe.same).trans (measure_arbitrationLosses .dominant s.line)

end Sys2Proof.Machine

namespace Sys2Proof.Machine

/-! ## Ending a step with events -/

/-- Ending a step in which one event was raised. -/
theorem finish_one {s : State} {e : EventRecord} (h : s.raised = [e]) :
    finish s
      = { s with host := enterEvent s.host e, raised := [], order := Config.order s.freeCount, freeCount := s.freeCount + 1 } := by
  simp [finish, flushEvents, freshOrder, h, interleave]

/-- Ending a step with no event raised. -/
theorem finish_none {s : State} (h : s.raised = []) :
    finish s = { s with order := Config.order s.freeCount, freeCount := s.freeCount + 1 } := by
  simp [finish, flushEvents, freshOrder, h]

/-- The events raised enter the queue in the order the free choices give. -/
theorem finish_host (s : State) :
    (finish s).host = (interleave s.raised.length s.order.eventPicks s.raised).foldl enterEvent s.host := by
  by_cases hr : s.raised = []
  · simp [finish, flushEvents, freshOrder, hr, interleave]
  · simp [finish, flushEvents, freshOrder, hr]

/-- STATION events, where one block alone raised them, keep their order too. -/
theorem interleave_stationEvents {b : Nat} (picks : List Nat) (es : List EventRecord) (h : ∀ e ∈ es, e.kind = .station → e.block = b) :
    ofKind .station (interleave es.length picks es) = ofKind .station es := by
  have same : ∀ l : List EventRecord, (∀ e ∈ l, e.kind = .station → e.block = b) →
      ofKind .station l = l.filter fun e => e.kind == .station && e.block == b := by
    intro l hl
    apply List.filter_congr
    intro e he
    by_cases hk : e.kind = .station
    · simp [hk, hl e he hk]
    · simp [hk]
  rw [same _ fun e he => h e (mem_of_interleave _ _ _ e he), same _ h]
  exact interleave_filter _ b _ _ _ le_rfl fun e he => by simpa using (Bool.and_eq_true_iff.mp he).2

/-- The events of a kind that one block alone raises keep their order. -/
theorem interleave_ofKind {k : EventKind} (hk : k ≠ .station) (picks : List Nat) (es : List EventRecord) :
    ofKind k (interleave es.length picks es) = ofKind k es := by
  have block : ∃ b, ∀ e : EventRecord, (e.kind == k) = true → e.block = b := by
    cases k with
    | station => exact absurd rfl hk
    | slot => exact ⟨1, fun e he => by simp_all [EventRecord.block]⟩
    | peer => exact ⟨3, fun e he => by simp_all [EventRecord.block]⟩
    | entry => exact ⟨4, fun e he => by simp_all [EventRecord.block]⟩
    | watch => exact ⟨4, fun e he => by simp_all [EventRecord.block]⟩
    | request => exact ⟨5, fun e he => by simp_all [EventRecord.block]⟩
    | snapshot => exact ⟨6, fun e he => by simp_all [EventRecord.block]⟩
    | peerWrite => exact ⟨7, fun e he => by simp_all [EventRecord.block]⟩
  obtain ⟨b, hb⟩ := block
  exact interleave_filter _ b _ _ _ le_rfl hb

/-! ## The records that a hold frees (R37) -/

/-- An idempotent change made at some places of a list, one after another. -/
theorem getElem?_foldl_modify {α : Type} {f : α → α} (hf : ∀ a, f (f a) = f a) (ks : List Nat) (l : List α) (i : Nat) :
    (ks.foldl (fun l k => l.modify k f) l)[i]? = if i ∈ ks then l[i]?.map f else l[i]? := by
  induction ks generalizing l with
  | nil => simp
  | cons k ks ih =>
    rw [List.foldl_cons, ih, List.getElem?_modify]
    by_cases hk : k = i
    · subst hk
      cases l[k]? <;> simp [hf]
    · simp [hk, Ne.symm hk]

theorem freeClaim_idem (r : SlotRecord) : freeClaim (freeClaim r) = freeClaim r := by
  unfold freeClaim
  split
  · simp [SlotState.isClaiming]
  · rfl

theorem freeClaim_isClaiming (r : SlotRecord) : (freeClaim r).state.isClaiming = false := by
  unfold freeClaim
  split
  · rfl
  · next h => exact Bool.eq_false_of_not_eq_true h

/-- Freeing the CLAIMING records one after another frees them all. -/
theorem foldl_freeClaim (s : State) :
    s.claimingSlots.foldl (fun l k => l.modify k freeClaim) s.slot.map = s.slot.map.map freeClaim := by
  apply List.ext_getElem?
  intro i
  rw [getElem?_foldl_modify freeClaim_idem, List.getElem?_map]
  split
  · rfl
  · next h =>
    cases hi : s.slot.map[i]? with
    | none => rfl
    | some r =>
      have hlt : i < s.slot.map.length := (List.getElem?_eq_some_iff.mp hi).1
      have hr : ¬r.state.isClaiming = true := fun hc => h <| by
        simp only [State.claimingSlots, List.mem_filter, List.mem_range]
        exact ⟨hlt, by simp [State.slotAt, List.getD_eq_getElem?_getD, hi, hc]⟩
      simp [freeClaim, hr]

/-- A hold frees every CLAIMING record, each with its event, lowest slot first. -/
theorem holdClaims_eq (s : State) :
    holdClaims s
      = { s with
          slot := { s.slot with map := s.slot.map.map freeClaim }
          raised := s.raised ++ s.claimingSlots.map fun k => ⟨.slot, 3, k, 0, 2, s.slot.round⟩ } := by
  have fold : ∀ (ks : List Nat) (s : State),
      ks.foldl (fun s k => raise .slot 3 k 0 2 (s.modSlotAt k freeClaim)) s
        = { s with
            slot := { s.slot with map := ks.foldl (fun l k => l.modify k freeClaim) s.slot.map }
            raised := s.raised ++ ks.map fun k => ⟨.slot, 3, k, 0, 2, s.slot.round⟩ } := by
    intro ks
    induction ks with
    | nil => intro s; simp
    | cons k ks ih =>
      intro s
      rw [List.foldl_cons, ih]
      simp [raise, State.modSlotAt, State.modSlot]
  rw [holdClaims, fold, foldl_freeClaim]

theorem holdClaims_claimingCount (s : State) : (holdClaims s).claimingCount = 0 := by
  rw [holdClaims_eq]
  simp [State.claimingCount, List.countP_eq_zero, freeClaim_isClaiming]

/-! ## Reports make no record CLAIMING -/

theorem countP_modify_le {α : Type} {p : α → Bool} {f : α → α} (h : ∀ a, p (f a) = true → p a = true) (l : List α) (k : Nat) :
    (l.modify k f).countP p ≤ l.countP p := by
  induction l generalizing k with
  | nil => simp
  | cons a l ih =>
    cases k with
    | zero =>
      simp only [List.modify_zero_cons, List.countP_cons]
      have := h a
      by_cases hf : p (f a) = true
      · simp [hf, this hf]
      · simp [hf]
    | succ k =>
      simp only [List.modify_succ_cons, List.countP_cons]
      have := ih k
      omega

theorem modSlotAt_claiming_le {f : SlotRecord → SlotRecord} (h : ∀ r, (f r).state.isClaiming = true → r.state.isClaiming = true)
    (k : Nat) (s : State) : (s.modSlotAt k f).claimingCount ≤ s.claimingCount := countP_modify_le h _ _

theorem setSlotState_claiming_le {f : SlotRecord → SlotRecord} (h : ∀ r, (f r).state.isClaiming = true → r.state.isClaiming = true)
    (k : Nat) (s : State) : (setSlotState k f s).claimingCount ≤ s.claimingCount := by
  rw [State.claimingCount, setSlotState_slot]
  exact countP_modify_le h _ _

theorem enterOff_slot (cause : Nat) (s : State) : (enterOff cause s).slot = (slotOff s).slot := by
  have himage := congrArg State.slot (imageAndRequestsOff_outsidePeers (stationOff (passStation .off cause (takePeriods s))))
  have hperiods := congrArg State.slot (takePeriods_outsideUnits s)
  show (slotOff (imageAndRequestsOff (stationOff (passStation .off cause (takePeriods s))))).slot = _
  simp only [slotOff, modSlot_slot]
  rw [show (imageAndRequestsOff (stationOff (passStation .off cause (takePeriods s)))).slot = s.slot from himage.trans hperiods]

theorem enterOff_claiming (cause : Nat) (s : State) : (enterOff cause s).claimingCount = 0 := by
  rw [State.claimingCount, enterOff_slot]
  simp [slotOff, List.countP_eq_zero, SlotRecord.reset, SlotState.isClaiming]

theorem followOwned_claiming_le (s : State) : (followOwned s).claimingCount ≤ s.claimingCount := by
  unfold followOwned
  split
  case h_3 =>
    split
    · simp [enterOff_claiming]
    · exact le_rfl
  all_goals first
    | exact le_rfl
    | split <;> exact le_rfl

theorem giveUpSlot_claiming_le (x : Transmission) (winner : Option Nat) (s : State) :
    (giveUpSlot x winner s).claimingCount ≤ s.claimingCount := by
  cases winner with
  | some n => exact setSlotState_claiming_le (fun r h => by simp [SlotState.isClaiming] at h) _ _
  | none =>
    refine (modSlotAt_claiming_le (fun r h => ?_) _ _).trans (setSlotState_claiming_le (fun r h => ?_) _ _)
    · split at h <;> exact h
    · simp [SlotState.isClaiming] at h

theorem reportToSlots_claiming_le (x : Transmission) {e : TxEnd} (he : e ≠ .sent) (s : State) :
    (reportToSlots x e s).claimingCount ≤ s.claimingCount := by
  unfold reportToSlots
  split
  · cases e with
    | sent => exact absurd rfl he
    | lost cls frame => exact giveUpSlot_claiming_le ..
    | abandoned => exact le_rfl
  · split
    · exact (followOwned_claiming_le _).trans (setSlotState_claiming_le (fun r h => by simp [SlotState.isClaiming] at h) _ _)
    · cases e with
      | sent => exact absurd rfl he
      | lost cls frame =>
        unfold reportOwned
        dsimp only
        split
        · exact modSlotAt_claiming_le (fun r h => by simp [SlotState.isClaiming] at h) _ _
        · exact (followOwned_claiming_le _).trans (giveUpSlot_claiming_le ..)
      | abandoned => exact le_rfl
    all_goals exact le_rfl
  · exact le_rfl

theorem reportToLists_of_notSent (x : Transmission) {e : TxEnd} (he : e ≠ .sent) (s : State) : reportToLists x e s = s := by
  cases e with
  | sent => exact absurd rfl he
  | lost cls frame => rfl
  | abandoned => rfl

/-- A frame that was not sent is reported to the slot unit alone (R75, R136). -/
theorem reportEnd_of_notSent (x : Transmission) {e : TxEnd} (he : e ≠ .sent) (s : State) : reportEnd x e s = reportToSlots x e s := by
  unfold reportEnd
  split <;> simp only [reportToLists_of_notSent x he]

theorem reportLost_claiming_le (cls : ArrivalClass) (frame : Option Frame) (waiting : List Transmission) (s : State) :
    (reportLost cls frame waiting s).claimingCount ≤ s.claimingCount := by
  induction waiting generalizing s with
  | nil => exact le_rfl
  | cons x waiting ih =>
    refine (ih _).trans ?_
    show (reportEnd x (.lost cls frame) s).claimingCount ≤ _
    rw [reportEnd_of_notSent x (by simp)]
    exact reportToSlots_claiming_le x (by simp) s

/-- An ABANDONED frame's report changes nothing outside LEAVING (R32, R34). -/
theorem reportEnd_abandoned {s : State} (x : Transmission) (h : s.ctl.state ≠ .leaving) : reportEnd x .abandoned s = s := by
  rw [reportEnd_of_notSent x (by simp), reportToSlots]
  split
  · rfl
  · split
    · next hs => exact absurd hs h
    all_goals rfl
  · rfl

end Sys2Proof.Machine

namespace Sys2Proof.Machine

/-! ## Medium holds (R13 to R15, R32, R37) -/

theorem markActivity_line (slot : Option Nat) (s : State) : (markActivity slot s).line = s.line := by cases slot <;> rfl

theorem reportActivity_line (slot : Option Nat) (s : State) : (reportActivity slot s).line = s.line := by
  unfold reportActivity
  split
  · rfl
  · exact markActivity_line ..

theorem reportActivity_claimingCount (slot : Option Nat) (s : State) : (reportActivity slot s).claimingCount ≤ s.claimingCount := by
  unfold reportActivity
  split
  · exact le_rfl
  · cases slot with
    | none => exact le_rfl
    | some k => exact modSlotAt_claiming_le (f := fun r => { r with activityThis := true }) (fun _ h => h) k s

theorem reportLost_lineFrame (cls : ArrivalClass) (frame : Option Frame) (waiting : List Transmission) (s : State) :
    LineFrame s (reportLost cls frame waiting s) := by
  induction waiting generalizing s with
  | nil => exact .of_eq rfl
  | cons x waiting ih => exact (reportEnd_lineFrame x _ s).trans (ih _)

/-- The end of an arrival in the line unit and in its slot's record: the receiver waits, and the slot had activity (R2, R12). -/
def arrived (slot : Option Nat) (s : State) : State := reportActivity slot (s.modLine fun l => { l with receiver := .waiting })

@[simp] theorem arrived_line (slot : Option Nat) (s : State) : (arrived slot s).line = { s.line with receiver := .waiting } :=
  reportActivity_line ..

theorem closeArrival_of_own {r : Reception} (h : r.own = true) (cls : ArrivalClass) (frame : Option Frame) (s : State) :
    closeArrival r cls frame s = arrived (arrivalSlot cls frame r.slot) s := if_pos h

theorem closeArrival_of_other {r : Reception} (h : r.own = false) (cls : ArrivalClass) (frame : Option Frame) (s : State) :
    closeArrival r cls frame s = otherArrival cls frame r.bytes.length (arrived (arrivalSlot cls frame r.slot) s) :=
  if_neg (by simp [h])

/-- An arrival that is FORMAT is counted, and ends the LOST transmissions that waited. -/
theorem otherArrival_format (bytes : Nat) (s : State) :
    otherArrival .format none bytes s
      = reportLost .format none s.line.lost (s.modLine fun l => { l with format := satInc l.format, lost := [] }) := rfl

/-- The count of FORMAT arrivals when a hold cuts off the arrival in progress: one more where it is not this station's own (R13, R14). -/
def LineUnit.cutFormat (l : LineUnit) : Half :=
  match l.receiver with
  | .inside r => if r.own then l.format else satInc l.format
  | .waiting => l.format

/-- The arrival that a hold cuts off ends, and the receiver waits. -/
theorem cutArrival_line (s : State) :
    (cutArrival s).line
      = { s.line with
          receiver := .waiting, tx := (cutArrival s).line.tx, lost := (cutArrival s).line.lost, format := s.line.cutFormat } := by
  unfold cutArrival LineUnit.cutFormat
  cases hr : s.line.receiver with
  | waiting => simp only [← hr]
  | inside r =>
    dsimp only
    cases hown : r.own with
    | true => rw [closeArrival_of_own hown, arrived_line, if_pos rfl]
    | false =>
      rw [closeArrival_of_other hown, otherArrival_format]
      have frame := reportLost_lineFrame .format none (arrived (arrivalSlot .format none r.slot) s).line.lost
        ((arrived (arrivalSlot .format none r.slot) s).modLine fun l => { l with format := satInc l.format, lost := [] })
      refine frame.same.trans ?_
      rw [modLine_line, arrived_line]
      rfl

theorem cutArrival_claiming_le (s : State) : (cutArrival s).claimingCount ≤ s.claimingCount := by
  unfold cutArrival
  split
  · exact le_rfl
  · next r _ =>
    have hactivity : (arrived (arrivalSlot .format none r.slot) s).claimingCount ≤ s.claimingCount :=
      reportActivity_claimingCount ..
    cases hown : r.own with
    | true => rwa [closeArrival_of_own hown]
    | false =>
      rw [closeArrival_of_other hown, otherArrival_format]
      exact (reportLost_claiming_le ..).trans hactivity

theorem abandonAny_lineFrame (s : State) : LineFrame s (abandonAny s) := by
  unfold abandonAny
  split
  · have hdropped : LineFrame s (s.modLine fun l => { l with tx := none }) := ⟨rfl, fun _ => rfl⟩
    exact hdropped.trans (reportEnd_lineFrame ..)
  · exact .of_eq rfl

theorem abandonAny_claiming_le (s : State) : (abandonAny s).claimingCount ≤ s.claimingCount := by
  unfold abandonAny
  split
  · rw [abandonTransmission, reportEnd_of_notSent _ (by simp)]
    exact reportToSlots_claiming_le _ (by simp) _
  · exact le_rfl

theorem holdClaims_line (s : State) : (holdClaims s).line = s.line := by rw [holdClaims_eq]

/-- The end of the arrival and of the claims, in the order the free choices give. -/
def cutAndFree (s : State) : State := if s.order.holdArrivalFirst then holdClaims (cutArrival s) else cutArrival (holdClaims s)

theorem cutAndFree_line (s : State) :
    (cutAndFree s).line
      = { s.line with
          receiver := .waiting, tx := (cutAndFree s).line.tx, lost := (cutAndFree s).line.lost, format := s.line.cutFormat } := by
  unfold cutAndFree
  split
  · rw [holdClaims_line]
    exact cutArrival_line s
  · exact (cutArrival_line (holdClaims s)).trans (by simp only [holdClaims_line])

theorem cutAndFree_claimingCount (s : State) : (cutAndFree s).claimingCount = 0 := by
  unfold cutAndFree
  split
  · exact holdClaims_claimingCount _
  · exact Nat.le_zero.mp ((cutArrival_claiming_le _).trans (holdClaims_claimingCount s).le)

/-- The line unit when a hold has begun: counted, with no frame and no arrival. -/
theorem takeHold_line (s : State) :
    (takeHold s).line
      = { s.line with
          hold := true, holds := satInc s.line.holds, receiver := .waiting, tx := none, lost := (takeHold s).line.lost
          format := s.line.cutFormat } := by
  have hnone : (takeHold s).line.tx = none := (takeHold_holdLaw s ((abandonAny_kept _).hold.trans ((cutAndFree_kept _).hold.trans rfl))).1
  have hcut := cutAndFree_line (raiseStation 4 0 0 (s.modLine fun l => { l with hold := true, holds := satInc l.holds }))
  have hframe := (abandonAny_lineFrame
    (cutAndFree (raiseStation 4 0 0 (s.modLine fun l => { l with hold := true, holds := satInc l.holds })))).same
  rw [hcut] at hframe
  rw [← hnone]
  exact hframe

theorem takeHold_claimingCount (s : State) : (takeHold s).claimingCount = 0 :=
  Nat.le_zero.mp ((abandonAny_claiming_le _).trans (cutAndFree_claimingCount _).le)

/-! ### The bit time in which a hold begins -/

theorem finish_line (s : State) : (finish s).line = s.line := by rw [finish_frame]

/-- The record of a slot at its end is CLAIMING if it was before. -/
theorem atEnd_isClaiming (r : SlotRecord) : r.atEnd.state.isClaiming = r.state.isClaiming := by
  cases hs : r.state with
  | heard o n =>
    simp only [SlotRecord.atEnd, hs]
    split
    · simp [SlotState.isClaiming]
    · split <;> simp [SlotState.isClaiming]
  | free => simp [SlotRecord.atEnd, hs]
  | claiming c => simp [SlotRecord.atEnd, hs]
  | owned c => simp [SlotRecord.atEnd, hs]

/-- With no frame the step of slot time leaves the line unit but for the marks of the LOST transmissions, and no record CLAIMING more. -/
theorem stepTimer_of_noFrame {s : State} (h : s.line.tx = none) :
    LineFrame s (stepTimer s) ∧ (stepTimer s).claimingCount ≤ s.claimingCount := by
  unfold stepTimer
  split
  · exact ⟨.of_eq rfl, le_rfl⟩
  · next hs =>
    split
    · unfold passSlot
      rw [if_neg hs]
      refine ⟨⟨rfl, id⟩, countP_modify_le (fun r hr => ?_) _ _⟩
      rwa [atEnd_isClaiming] at hr
    · dsimp only
      split
      · simp only [takeSendPoint, modSlot_line, h]
        exact ⟨.of_eq rfl, le_rfl⟩
      · exact ⟨.of_eq rfl, le_rfl⟩

/-- The level that begins a hold is measured. -/
def State.measured (s : State) : State := (pastBeginning s).modLine (·.measure .dominant)

/-- Right after a hold's beginning the line comes to nothing more. -/
theorem lineEnds_of_held {s : State} (hr : s.line.receiver = .waiting) (hd : s.line.rxd = .dominant) : s.lineEnds = false := by
  simp [State.lineEnds, State.releaseDue, hr, Receiver.ended, LineUnit.recessiveRun, hd, Config.releaseRun]

theorem measured_dominant {s : State} (h : s.line.rxd = .dominant) :
    s.line.measure .dominant = { s.line with run := s.line.run + 1 } := if_pos h.symm

/-- The twenty-first dominant level of a run begins a hold outside one. -/
theorem row_of_hold {s : State} (hmid : s.midSlot) (hd : s.line.rxd = .dominant) (hrun : 20 ≤ s.line.run) (hh : s.line.hold = false) :
    exec (.holdBegin [] .dominant) s = .next (finish (stepTimer (finish (takeHold s.measured)))) := by
  have hmeasured : s.measured.line = { s.line with run := s.line.run + 1 } := measured_dominant hd
  have hline := takeHold_line s.measured
  rw [hmeasured] at hline
  have hhear : hearBit .dominant (pastBeginning s) = finish (takeHold s.measured) := by
    refine if_pos ?_
    show Config.holdRun < s.measured.line.dominantRun ∧ s.measured.line.hold = false
    rw [hmeasured]
    simp only [LineUnit.dominantRun, hd, if_true, Config.holdRun]
    exact ⟨by omega, hh⟩
  have htx : (finish (takeHold s.measured)).line.tx = none := by rw [finish_line, hline]
  have hends {t : State} (ht : LineFrame (finish (takeHold s.measured)) t) : t.lineEnds = false := by
    apply lineEnds_of_held
    · rw [ht.same, finish_line, hline]
    · rw [ht.same, finish_line, hline]
      exact hd
  have hend : endBit (finish (takeHold s.measured)) = stepTimer (finish (takeHold s.measured)) := by
    rw [endBit_of_line (takeSent_of_none htx) (hends (.of_eq rfl))]
    exact takeLineEnd_of_not (hends (stepTimer_of_noFrame htx).1)
  rw [row_of_quiet (by rfl) hmid.1, hhear, hend]

end Sys2Proof.Machine

namespace Sys2Proof.Machine

/-! ## A hold outside LEAVING that ends no LOST transmission -/

/-- A record but for its activity this round. -/
def SlotRecord.unmarked (r : SlotRecord) : SlotRecord := { r with activityThis := false }

/-- Two maps of the same records but for their activity this round. -/
def sameRecords (l m : List SlotRecord) : Prop := l.map SlotRecord.unmarked = m.map SlotRecord.unmarked

theorem sameRecords_mark (l : List SlotRecord) (k : Nat) : sameRecords (l.modify k fun r => { r with activityThis := true }) l := by
  apply List.ext_getElem (by simp)
  intro i h1 h2
  simp only [List.getElem_map, List.getElem_modify]
  split <;> rfl

theorem unmarked_freeClaim (r : SlotRecord) : (freeClaim r).unmarked = freeClaim r.unmarked := by
  unfold freeClaim SlotRecord.unmarked
  dsimp only
  split <;> rfl

theorem sameRecords_freeClaim {l m : List SlotRecord} (h : sameRecords l m) : sameRecords (l.map freeClaim) (m.map freeClaim) := by
  have commute : SlotRecord.unmarked ∘ freeClaim = freeClaim ∘ SlotRecord.unmarked := funext unmarked_freeClaim
  unfold sameRecords at h ⊢
  rw [List.map_map, List.map_map, commute, ← List.map_map, ← List.map_map, h]

theorem sameRecords_getD {l m : List SlotRecord} (h : sameRecords l m) (k : Nat) :
    (l.getD k SlotRecord.reset).unmarked = (m.getD k SlotRecord.reset).unmarked := by
  have hk := congrArg (·[k]?) h
  simp only [List.getElem?_map] at hk
  simp only [List.getD_eq_getElem?_getD]
  cases hl : l[k]? <;> cases hm : m[k]? <;> simp_all

theorem sameRecords_claimingSlots {s : State} {m : List SlotRecord} (h : sameRecords m s.slot.map) :
    ({ s with slot := { s.slot with map := m } } : State).claimingSlots = s.claimingSlots := by
  have hlen : m.length = s.slot.map.length := by simpa using congrArg List.length h
  simp only [State.claimingSlots, hlen]
  apply List.filter_congr
  intro k _
  have hk := congrArg SlotRecord.state (sameRecords_getD h k)
  simp only [SlotRecord.unmarked] at hk
  simp only [State.slotAt, hk]

/-- The end of an arrival marks its slot's activity, and the receiver waits. -/
theorem arrived_eq (slot : Option Nat) (s : State) :
    ∃ m, arrived slot s = { s with line := { s.line with receiver := .waiting }, slot := { s.slot with map := m } }
      ∧ sameRecords m s.slot.map := by
  unfold arrived reportActivity
  split
  · exact ⟨_, rfl, rfl⟩
  · cases slot with
    | none => exact ⟨_, rfl, rfl⟩
    | some k => exact ⟨_, rfl, sameRecords_mark _ _⟩

/-- The arrival that a hold cuts off marks its slot's activity, where no LOST transmission waits for it. -/
theorem cutArrival_quiet {s : State} (h : s.line.lost = []) :
    ∃ l m, cutArrival s = { s with line := l, slot := { s.slot with map := m } } ∧ sameRecords m s.slot.map := by
  unfold cutArrival
  split
  · exact ⟨_, _, rfl, rfl⟩
  · next r _ =>
    obtain ⟨m, hm, hsame⟩ := arrived_eq (arrivalSlot .format none r.slot) s
    cases hown : r.own with
    | true =>
      rw [closeArrival_of_own hown, hm]
      exact ⟨_, m, rfl, hsame⟩
    | false =>
      rw [closeArrival_of_other hown, otherArrival_format, hm, h]
      exact ⟨_, m, rfl, hsame⟩

/-- The events of the claims that a hold ends, lowest slot first. -/
def State.claimFailures (s : State) : List EventRecord := s.claimingSlots.map fun k => ⟨.slot, 3, k, 0, 2, s.slot.round⟩

theorem cutAndFree_quiet {s : State} (h : s.line.lost = []) :
    ∃ l m, cutAndFree s = { s with line := l, slot := { s.slot with map := m }, raised := s.raised ++ s.claimFailures }
      ∧ sameRecords m (s.slot.map.map freeClaim) := by
  unfold cutAndFree
  split
  · obtain ⟨l, m, hcut, hsame⟩ := cutArrival_quiet h
    refine ⟨l, m.map freeClaim, ?_, sameRecords_freeClaim hsame⟩
    have hslots := sameRecords_claimingSlots hsame
    rw [holdClaims_eq, hcut, State.claimFailures, ← hslots]
    rfl
  · obtain ⟨l, m, hcut, hsame⟩ := cutArrival_quiet (s := holdClaims s) (by rw [holdClaims_line]; exact h)
    rw [hcut]
    rw [holdClaims_eq] at hsame ⊢
    exact ⟨l, m, rfl, hsame⟩

theorem abandonAny_quiet {s : State} (h : s.ctl.state ≠ .leaving) : ∃ l, abandonAny s = { s with line := l } := by
  unfold abandonAny
  split
  · exact ⟨_, reportEnd_abandoned (s := s.modLine fun l => { l with tx := none }) _ h⟩
  · exact ⟨_, rfl⟩

/-- A hold outside LEAVING that ends no LOST transmission changes the line unit and frees the CLAIMING records. -/
theorem takeHold_quiet {s : State} (hlost : s.line.lost = []) (hstate : s.ctl.state ≠ .leaving) :
    ∃ l m, takeHold s
        = { s with
            line := l, slot := { s.slot with map := m }
            raised := s.raised ++ [⟨.station, 4, s.ctl.config.station, 0, 0, s.slot.round⟩] ++ s.claimFailures }
      ∧ sameRecords m (s.slot.map.map freeClaim) := by
  obtain ⟨l, m, hcut, hsame⟩ := cutAndFree_quiet
    (s := raiseStation 4 0 0 (s.modLine fun l => { l with hold := true, holds := satInc l.holds })) hlost
  obtain ⟨l', habandon⟩ := abandonAny_quiet
    (s := cutAndFree (raiseStation 4 0 0 (s.modLine fun l => { l with hold := true, holds := satInc l.holds })))
    (by rw [hcut]; exact hstate)
  refine ⟨l', m, ?_, hsame⟩
  show abandonAny (cutAndFree _) = _
  rw [habandon, hcut]
  rfl

/-- With no arrival, no frame and no claim a hold only begins. -/
theorem takeHold_idle {s : State} (hr : s.line.receiver = .waiting) (htx : s.line.tx = none) (hc : s.claimingCount = 0) :
    takeHold s = raiseStation 4 0 0 (s.modLine fun l => { l with hold := true, holds := satInc l.holds }) := by
  have hslots : s.claimingSlots = [] := by
    simp only [State.claimingCount, List.countP_eq_zero, Bool.not_eq_true] at hc
    simp only [State.claimingSlots, List.filter_eq_nil_iff, List.mem_range, Bool.not_eq_true]
    intro k hk
    rw [State.slotAt, List.getD_eq_getElem _ _ hk]
    exact hc _ (List.getElem_mem hk)
  have hclaims {t : State} (ht : t.slot.map = s.slot.map) : holdClaims t = t := by
    have : t.claimingSlots = [] := by
      rw [← hslots]
      simp only [State.claimingSlots, State.slotAt, ht]
    rw [holdClaims, this]
    rfl
  have hcut {t : State} (ht : t.line.receiver = .waiting) : cutArrival t = t := by simp only [cutArrival, ht]
  have hfree {t : State} (ht : t.slot.map = s.slot.map) (hr : t.line.receiver = .waiting) : cutAndFree t = t := by
    simp only [cutAndFree, hcut hr, hclaims ht, ite_self]
  show abandonAny (cutAndFree _) = _
  rw [hfree (t := raiseStation 4 0 0 (s.modLine fun l => { l with hold := true, holds := satInc l.holds })) rfl hr]
  simp only [abandonAny, raiseStation, raise_line, modLine_line, htx]

/-- Where the step of slot time has no event, it is the timer's. -/
theorem slotTimeEnds_of_same {s t : State} (h : s.slotTimeEnds = false) (hctl : t.ctl.state = s.ctl.state)
    (htimer : t.slot.timer = s.slot.timer) (htx : t.line.tx = none) : t.slotTimeEnds = false := by
  simp only [State.slotTimeEnds, hctl, htimer, htx, Option.any_none, Bool.and_false, Bool.or_false, Bool.and_eq_false_iff,
    Bool.or_eq_false_iff] at h ⊢
  exact h.imp id fun h => h.1

/-- Away from its events the step of slot time is at most one of the timer. -/
theorem stepTimer_eq_timer {s : State} (h : s.slotTimeEnds = false) :
    stepTimer s = s.modSlot fun u => { u with timer := if s.ctl.state = .off then u.timer else u.timer + 1 } := by
  rw [stepTimer_of_mid h]
  split <;> rfl

theorem getD_map_freeClaim (l : List SlotRecord) (k : Nat) :
    (l.map freeClaim).getD k SlotRecord.reset = freeClaim (l.getD k SlotRecord.reset) := by
  simp only [List.getD_eq_getElem?_getD, List.getElem?_map]
  cases l[k]? <;> rfl

/-- The records after a hold's beginning: the CLAIMING ones FREE, the others as they were. -/
theorem records_after_hold {l m : List SlotRecord} (h : sameRecords m (l.map freeClaim)) (k : Nat) :
    let r := l.getD k SlotRecord.reset
    let q := m.getD k SlotRecord.reset
    (r.state.isClaiming = true → q.state = .free ∧ q.ownerHeard = false ∧ q.activityLast = r.activityLast)
      ∧ (r.state.isClaiming = false → q.state = r.state ∧ q.ownerHeard = r.ownerHeard ∧ q.activityLast = r.activityLast) := by
  intro r q
  have hq := sameRecords_getD h k
  rw [getD_map_freeClaim] at hq
  obtain ⟨hstate, hlast, howner⟩ : q.state = (freeClaim r).state ∧ q.activityLast = (freeClaim r).activityLast
      ∧ q.ownerHeard = (freeClaim r).ownerHeard := by
    simp only [SlotRecord.unmarked, SlotRecord.mk.injEq] at hq
    exact ⟨hq.1, hq.2.2.1, hq.2.2.2⟩
  rw [hstate, hlast, howner]
  constructor
  · intro hc
    simp [freeClaim, hc]
  · intro hc
    simp [freeClaim, hc]

/-- The events of a hold's beginning, by kind. -/
theorem holdEvents (picks : List Nat) (station : Nat) (round : Half) (s : State) :
    let es := [⟨.station, 4, station, 0, 0, round⟩] ++ s.claimFailures
    ofKind .station (interleave es.length picks es) = [⟨.station, 4, station, 0, 0, round⟩]
      ∧ ofKind .slot (interleave es.length picks es) = s.claimFailures := by
  intro es
  have slots : ∀ e ∈ s.claimFailures, e.kind = .slot := by
    intro e he
    simp only [State.claimFailures, List.mem_map] at he
    obtain ⟨k, -, rfl⟩ := he
    rfl
  constructor
  · rw [interleave_stationEvents (b := 0), ofKind_append]
    · have : ofKind .station s.claimFailures = [] := by
        simp only [ofKind, List.filter_eq_nil_iff]
        intro e he
        simp [slots e he]
      rw [this]
      rfl
    · intro e he hk
      rcases List.mem_append.mp he with he | he
      · rw [List.mem_singleton.mp he]
        rfl
      · rw [slots e he] at hk
        cases hk
  · rw [interleave_ofKind (by simp), ofKind_append]
    have : ofKind .slot s.claimFailures = s.claimFailures := by
      simp only [ofKind, List.filter_eq_self]
      intro e he
      simp [slots e he]
    rw [this]
    rfl

/-- The slot timer passes in every state but OFF (R16). -/
theorem afterBit_eq (level : Level) (s : State) :
    s.afterBit level
      = { pastBeginning s with
          line := s.line.measure level
          slot := { s.slot with timer := if s.ctl.state = .off then s.slot.timer else s.slot.timer + 1 } } := by
  unfold State.afterBit
  split <;> rfl

/-- A step that ends with one event raised last. -/
theorem finish_raise {s : State} (h : s.raised = []) (kind : EventKind) (code subject detail : Nat) (v : Word) :
    finish (raise kind code subject detail v s)
      = { s.withEvent kind code subject detail v with order := Config.order s.freeCount, freeCount := s.freeCount + 1 } := by
  rw [finish_one (e := ⟨kind, code, subject, detail, v, s.slot.round⟩) (by rw [raise, h]; rfl), State.withEvent, h]
  rfl

/-- Settles O35. -/
theorem holdsBeginAndEnd : Obligations.HoldsBeginAndEnd := by
  refine ⟨fun s hmid => ⟨fun hno htxe hended => ?_, fun hd hrun hh => ⟨?_, fun hlost hstate => ?_, fun hr htx hc => ?_⟩⟩,
    fun s hmid hh hr htx => ?_⟩
  · refine gives_bit (by rfl) hmid hno (read_of_notSending htxe .dominant) (fun hw => ?_) hended
      (.inr ((recessiveRun_measure_dominant s.line).trans_lt (by omega)))
    simpa [LineUnit.waitsToSend] using hw
  · have hline := takeHold_line s.measured
    have hmeasured : s.measured.line = { s.line with run := s.line.run + 1 } := measured_dominant hd
    rw [hmeasured] at hline
    obtain ⟨hframe, hclaims⟩ := stepTimer_of_noFrame (s := finish (takeHold s.measured)) (by rw [finish_line, hline])
    have hnone := hframe.none (by rw [finish_line, hline])
    have hfinal := hframe.same
    rw [finish_line, hline] at hfinal
    replace hfinal := (finish_line (stepTimer (finish (takeHold s.measured)))).trans hfinal
    have hcount : (finish (stepTimer (finish (takeHold s.measured)))).claimingCount = 0 := by
      rw [finish_frame]
      refine Nat.le_zero.mp (hclaims.trans ?_)
      rw [finish_frame (takeHold s.measured)]
      exact (takeHold_claimingCount s.measured).le
    refine ⟨_, row_of_hold hmid hd hrun hh, congrArg LineUnit.hold hfinal, congrArg LineUnit.holds hfinal,
      (congrArg LineUnit.tx (finish_line _)).trans hnone, congrArg LineUnit.receiver hfinal, hcount,
      (congrArg LineUnit.rxd hfinal).trans hd, congrArg LineUnit.run hfinal, fun r hr hown => (congrArg LineUnit.format hfinal).trans ?_⟩
    simp [LineUnit.cutFormat, hr, hown]
  · obtain ⟨l, m, htake, hsame⟩ := takeHold_quiet (s := s.measured) ((measure_lost .dominant s.line).trans hlost) hstate
    have hnone : (takeHold s.measured).line.tx = none := by rw [takeHold_line]
    have hfailures : s.measured.claimFailures = s.claimFailures := rfl
    have hraised : s.measured.raised = [] := hmid.1.2.1
    rw [hraised, hfailures, List.nil_append] at htake
    have hmid' : (finish (takeHold s.measured)).slotTimeEnds = false := by
      refine slotTimeEnds_of_same hmid.2 ?_ ?_ (by rw [finish_line, hnone]) <;> rw [finish_frame, htake] <;> rfl
    refine ⟨_, row_of_hold hmid hd hrun hh, ?_⟩
    rw [stepTimer_eq_timer hmid', finish_none (by rw [finish_frame]; rfl), finish_frame (takeHold s.measured), finish_host, htake]
    obtain ⟨hstation, hslot⟩ := holdEvents (takeHold s.measured).order.eventPicks s.ctl.config.station s.slot.round s
    rw [htake] at hstation hslot
    exact ⟨fun k => records_after_hold hsame k, rfl, rfl, rfl, rfl, rfl, _, rfl, hstation, hslot⟩
  · have hmeasured : s.measured.line = { s.line with run := s.line.run + 1 } := measured_dominant hd
    have htake := takeHold_idle (s := s.measured) (by rw [hmeasured]; exact hr) (by rw [hmeasured]; exact htx) hc
    have hmid' : (finish (takeHold s.measured)).slotTimeEnds = false := by
      refine slotTimeEnds_of_same hmid.2 ?_ ?_ (by rw [finish_line, takeHold_line]) <;> rw [finish_frame, htake] <;> rfl
    refine ⟨_, row_of_hold hmid hd hrun hh, ?_⟩
    rw [stepTimer_eq_timer hmid', finish_none (by rw [finish_frame]; rfl), htake, raiseStation,
      finish_raise (s := s.measured.modLine _) hmid.1.2.1, afterBit_eq, ← measure_holds .dominant s.line]
    rfl
  · have hheard : s.heard .recessive = .waiting := by simp [State.heard, hr, Receiver.hear]
    have hdominant : s.heard .dominant = .waiting := heard_noStartBit hr (.inr (.inr hh))
    have htxe : s.txeOn = false := by simp [State.txeOn, htx]
    have same (level : Level) (h : s.heard level = .waiting) :
        ({ s.line.measure level with receiver := s.heard level } : LineUnit) = s.line.measure level := by
      rw [h, ← hr, ← measure_receiver level s.line]
    have still (level : Level) {row : Instr} (hrow : exec row s = passRow [] level s) (h : s.heard level = .waiting)
        (hrun : (s.line.measure level).recessiveRun < 1024) : Gives row s (s.afterBit level) := by
      refine gives_bit (l := s.line.measure level) hrow hmid (.inl hh) ?_ (by simp [LineUnit.waitsToSend]) ?_ (.inr hrun)
      · rw [read_of_notSending htxe level, State.hearing, same level h]
      · rw [measure_receiver, hr]
        rfl
    refine ⟨fun hrec hrun => ?_, fun hshort => ?_, ?_, fun hrec => ?_⟩
    · have hm : s.line.measure .recessive = { s.line with run := s.line.run + 1 } := if_pos hrec.symm
      have hread : takeSent (readBack .recessive (s.hearing .recessive))
          = { pastBeginning s with line := s.line.measure .recessive } := by
        rw [read_of_notSending htxe .recessive, State.hearing, same .recessive hheard]
      have hrelease : takeLineEnd (s.afterBit .recessive) = takeRelease (s.afterBit .recessive) := by
        have hended : (s.afterBit .recessive).line.receiver.ended = false := by
          show (s.line.measure .recessive).receiver.ended = false
          rw [hm, hr]
          rfl
        have hdue : (s.afterBit .recessive).releaseDue = true := by
          simp [State.releaseDue, State.afterBit, hm, hh, LineUnit.recessiveRun, hrec, Config.releaseRun, hrun]
        simp only [takeLineEnd, hended, Bool.false_eq_true, if_false, hdue, if_true]
      refine ⟨_, row_of_bit (by rfl) hmid (.inl hh) hread (by simp [LineUnit.waitsToSend]), ?_⟩
      rw [show ({ s.afterBit .recessive with line := s.line.measure .recessive } : State) = s.afterBit .recessive from rfl, hrelease,
        takeRelease, raiseStation, finish_raise (s := (s.afterBit .recessive).modLine _) hmid.1.2.1]
      rfl
    · refine still .recessive (by rfl) hheard ?_
      unfold LineUnit.measure LineUnit.recessiveRun
      rcases hshort with h | h
      · simp [h]
      · by_cases hrec : Level.recessive = s.line.rxd
        · simp only [if_pos hrec]
          split <;> omega
        · simp [if_neg hrec]
    · exact still .dominant (by rfl) hdominant ((recessiveRun_measure_dominant s.line).trans_lt (by omega))
    · simp [LineUnit.measure, hrec]

end Sys2Proof.Machine

namespace Sys2Proof.Machine

/-! ## The bit time in which an arrival ends (R2, R9) -/

/-- One recessive bit time before the end of frame, the next one ends the arrival. -/
theorem heard_almostEnded {s : State} {r : Reception} (hr : s.line.receiver = .inside r) (he : r.almostEnded) :
    ∃ p, s.heard .recessive = .inside { r with phase := p } ∧ ({ r with phase := p } : Reception).ended = true := by
  rcases he with he | he
  · exact ⟨.gap 12, by simp [State.heard, hr, Receiver.hear, Reception.hear, he], rfl⟩
  · exact ⟨.broken 12, by simp [State.heard, hr, Receiver.hear, Reception.hear, he], rfl⟩

theorem closeArrival_kept_classified (r : Reception) (s : State) :
    Kept s (closeArrival r (r.classified s.ctl.config).1 (r.classified s.ctl.config).2 s) :=
  closeArrival_kept r fun _ hc hf => slot_of_good (c := s.ctl.config) (bytes := r.bytes) (missing := r.missing || r.overlong)
    (Prod.ext hc hf)

theorem takeArrivalEnd_of_inside {s : State} {r : Reception} (h : s.line.receiver = .inside r) :
    takeArrivalEnd s = closeArrival r (r.classified s.ctl.config).1 (r.classified s.ctl.config).2 s := by
  simp only [takeArrivalEnd, h]

/-- A row in which an arrival ends, outside a hold and with no frame being sent. -/
theorem row_of_arrivalEnd {s : State} {r : Reception} (hmid : s.midSlot) (htxe : s.txeOn = false) (hh : s.line.hold = false)
    (hr : s.line.receiver = .inside r) (he : r.almostEnded) :
    exec (.arrivalEnd [] .recessive) s
      = .next (finish (closeArrival r (r.classified s.ctl.config).1 (r.classified s.ctl.config).2 (s.afterBit .recessive))) := by
  obtain ⟨p, hheard, hended⟩ := heard_almostEnded hr he
  have hl : (s.hearing .recessive).line.waitsToSend = true → s.line.waitsToSend = true := by
    intro hw
    rw [← hw]
    show s.line.tx.any _ = (s.line.measure .recessive).tx.any _
    rw [measure_tx]
  rw [row_of_bit (l := (s.hearing .recessive).line) (by rfl) hmid (.inr (.inl rfl)) (read_of_notSending htxe .recessive) hl]
  have hclose : takeArrivalEnd { s.afterBit .recessive with line := (s.hearing .recessive).line }
      = closeArrival r (r.classified s.ctl.config).1 (r.classified s.ctl.config).2 (s.afterBit .recessive) := by
    have hreceiver : ({ s.afterBit .recessive with line := (s.hearing .recessive).line } : State).line.receiver
        = .inside { r with phase := p } := hheard
    exact (takeArrivalEnd_of_inside hreceiver).trans rfl
  have hline : takeLineEnd { s.afterBit .recessive with line := (s.hearing .recessive).line }
      = closeArrival r (r.classified s.ctl.config).1 (r.classified s.ctl.config).2 (s.afterBit .recessive) := by
    have hr' : ({ s.afterBit .recessive with line := (s.hearing .recessive).line } : State).line.receiver.ended = true := by
      show (s.heard .recessive).ended = true
      rw [hheard]
      exact hended
    have hhold : (closeArrival r (r.classified s.ctl.config).1 (r.classified s.ctl.config).2 (s.afterBit .recessive)).line.hold = false :=
      ((closeArrival_kept_classified r (s.afterBit .recessive)).hold.trans (measure_hold .recessive s.line)).trans hh
    simp only [takeLineEnd, hr', if_true, hclose, State.releaseDue, hhold, Bool.false_and, Bool.false_eq_true, if_false]
  rw [hline]

/-! ## Records given up (R31, R33) -/

theorem slotAt_modSlotAt (k : Nat) (f : SlotRecord → SlotRecord) (s : State) :
    (s.modSlotAt k f).slotAt k = if k < s.slot.map.length then f (s.slotAt k) else SlotRecord.reset := by
  simp only [State.slotAt, State.modSlotAt, modSlot_slot, List.getD_eq_getElem?_getD, List.getElem?_modify, if_true]
  split
  · next h => simp [List.getElem?_eq_getElem h]
  · next h => simp [List.getElem?_eq_none (Nat.not_lt.mp h)]

theorem slotAt_modSlotAt_ne {k j : Nat} (h : k ≠ j) (f : SlotRecord → SlotRecord) (s : State) :
    (s.modSlotAt k f).slotAt j = s.slotAt j := by
  simp only [State.slotAt, State.modSlotAt, modSlot_slot, List.getD_eq_getElem?_getD, List.getElem?_modify, h, if_false,
    id_map']

theorem modSlotAt_modSlotAt (k : Nat) (f g : SlotRecord → SlotRecord) (s : State) :
    (s.modSlotAt k f).modSlotAt k g = s.modSlotAt k fun r => g (f r) := by
  simp only [State.modSlotAt, State.modSlot]
  congr 2
  apply List.ext_getElem?
  intro i
  simp only [List.getElem?_modify]
  split
  · cases s.slot.map[i]? <;> rfl
  · simp

/-- A record in a state that is not reset lies in the map. -/
theorem lt_of_slotAt_ne {s : State} {k : Nat} (h : (s.slotAt k).state ≠ .free) : k < s.slot.map.length := by
  by_contra hk
  exact h (by rw [State.slotAt, List.getD_eq_default _ _ (Nat.not_lt.mp hk)]; rfl)

/-- A record without an owner becomes FREE with no change of owner (R80). -/
theorem becomeFree_of_noOwner {s : State} {k : Nat} (h : (s.slotAt k).state.owner? = none) :
    becomeFree k s = s.modSlotAt k fun r => { r with state := .free, ownerHeard := false } := by
  have hafter : ((s.modSlotAt k fun r => { r with state := .free, ownerHeard := false }).slotAt k).state.owner? = none := by
    rw [slotAt_modSlotAt]
    split <;> rfl
  simp only [becomeFree, setSlotState, h, hafter, changeOwner, if_true]

/-- The record of a slot given up to a winner that is not known (R31, R33). -/
def givenUp (x : Transmission) (r : SlotRecord) : SlotRecord :=
  if x.slotEnded then { r with state := .free, ownerHeard := false, activityLast := true }
  else { r with state := .free, ownerHeard := false, activityThis := true }

theorem giveUpSlot_unknown {s : State} {x : Transmission} (h : (s.slotAt x.slot).state.owner? = none) :
    giveUpSlot x none s = s.modSlotAt x.slot (givenUp x) := by
  simp only [giveUpSlot, becomeFree_of_noOwner h, modSlotAt_modSlotAt]
  rfl

/-- A claim that is LOST to a winner that is not known (R31). -/
theorem reportEnd_lostClaim {s : State} {x : Transmission} {n : Nat} {cls : ArrivalClass} {frame : Option Frame}
    (hkind : x.kind = .claimFrame) (hst : (s.slotAt x.slot).state = .claiming n)
    (hw : knownWinner s.ctl.config.station x.slot cls frame = none) :
    reportEnd x (.lost cls frame) s = raise .slot 3 x.slot 0 1 (s.modSlotAt x.slot (givenUp x)) := by
  rw [reportEnd_of_notSent x (by simp)]
  simp only [reportToSlots, hkind, hst, reportClaim, hw]
  rw [giveUpSlot_unknown (by rw [hst]; rfl)]
  rfl

/-- A first loss of a slot frame in MEMBER raises the clash count (R33). -/
theorem reportEnd_firstLoss {s : State} {x : Transmission} {cls : ArrivalClass} {frame : Option Frame}
    (hkind : x.kind = .slotFrame) (hst : (s.slotAt x.slot).state = .owned 0) (hstate : s.ctl.state = .member) :
    reportEnd x (.lost cls frame) s = s.modSlotAt x.slot fun r => { r with state := .owned 1 } := by
  rw [reportEnd_of_notSent x (by simp)]
  simp only [reportToSlots, hkind, hst, hstate, reportOwned, if_true]

theorem countP_modify_lt {α : Type} {p : α → Bool} {f : α → α} {l : List α} {k : Nat} (hk : k < l.length) (h1 : p l[k] = true)
    (h2 : p (f l[k]) = false) : (l.modify k f).countP p = l.countP p - 1 := by
  induction l generalizing k with
  | nil => simp at hk
  | cons a l ih =>
    cases k with
    | zero =>
      simp only [List.getElem_cons_zero] at h1 h2
      simp [h1, h2]
    | succ k =>
      simp only [List.getElem_cons_succ] at h1 h2
      have hk : k < l.length := by simpa using hk
      have hpos : 0 < l.countP p := List.countP_pos_iff.mpr ⟨l[k], List.getElem_mem hk, h1⟩
      simp only [List.modify_succ_cons, List.countP_cons, ih hk h1 h2]
      omega

theorem givenUp_notOwned (x : Transmission) (r : SlotRecord) : (givenUp x r).state.isOwned = false := by
  unfold givenUp
  split <;> rfl

/-- A record given up is OWNED no more. -/
theorem ownedCount_givenUp {s : State} {x : Transmission} {n : Nat} (hst : (s.slotAt x.slot).state = .owned n) :
    (s.modSlotAt x.slot (givenUp x)).ownedCount = s.ownedCount - 1 := by
  have hk := lt_of_slotAt_ne (s := s) (k := x.slot) (by rw [hst]; simp)
  rw [State.slotAt, List.getD_eq_getElem _ _ hk] at hst
  exact countP_modify_lt hk (by rw [hst]; rfl) (givenUp_notOwned ..)

theorem followOwned_member {s : State} (h : s.ctl.state = .member) :
    followOwned s = if s.ownedCount = 0 then passStation .claiming 4 s else s := by simp only [followOwned, h]

/-- The slot given up at the second loss of a slot frame, with its event. -/
def lostSlot (x : Transmission) (s : State) : State :=
  raise .slot 2 x.slot 0 (BitVec.ofNat 32 (s.ownedCount - 1)) (s.modSlotAt x.slot (givenUp x))

/-- A second loss of a slot frame in MEMBER, to a winner that is not known, gives the slot up; the last one takes the station back (R33, R48). -/
theorem reportEnd_secondLoss {s : State} {x : Transmission} {n : Nat} {cls : ArrivalClass} {frame : Option Frame}
    (hkind : x.kind = .slotFrame) (hst : (s.slotAt x.slot).state = .owned n) (hn : n ≠ 0) (hstate : s.ctl.state = .member)
    (hw : knownWinner s.ctl.config.station x.slot cls frame = none) :
    reportEnd x (.lost cls frame) s = if s.ownedCount - 1 = 0 then passStation .claiming 4 (lostSlot x s) else lostSlot x s := by
  have hcount : (lostSlot x s).ownedCount = s.ownedCount - 1 := ownedCount_givenUp hst
  rw [← hcount, ← followOwned_member (s := lostSlot x s) hstate, reportEnd_of_notSent x (by simp), lostSlot, ← ownedCount_givenUp hst]
  simp only [reportToSlots, hkind, hst, hstate, reportOwned, if_neg hn, hw]
  rw [giveUpSlot_unknown (by rw [hst]; rfl)]
  rfl

end Sys2Proof.Machine

namespace Sys2Proof.Machine

/-! ## Arrivals of this station, and those that bring no values (R9, R11, R13, R85) -/

/-- The arrival is counted by its class, and its LOST reports are taken up. -/
def counted (cls : ArrivalClass) (s : State) : State := s.modLine fun l => { countArrival cls l with lost := [] }

/-- A PLAN_MISMATCH arrival is held against its sender (R85). -/
def blame (cls : ArrivalClass) (frame : Option Frame) (s : State) : State :=
  match cls, frame with
  | .planMismatch, some f => peerPlanMismatch f.source s
  | _, _ => s

/-- An arrival that is not a GOOD one of another station's number is counted, held against its sender, and ends the LOST transmissions. -/
theorem otherArrival_eq {cls : ArrivalClass} {frame : Option Frame} {s : State} (bytes : Nat)
    (h : ∀ f, cls = .good → frame = some f → f.source = s.ctl.config.station) :
    otherArrival cls frame bytes s = reportLost cls frame s.line.lost (blame cls frame (counted cls s)) := by
  unfold otherArrival
  split
  · next f => exact if_pos (h f rfl rfl)
  · rfl
  · next h1 h2 =>
    rw [blame]
    · rfl
    · exact h2

/-- No rule tells the winner where the arrival is not a GOOD one of another station's number. -/
theorem knownWinner_eq_none {station slot : Nat} {cls : ArrivalClass} {frame : Option Frame}
    (h : ∀ f, cls = .good → frame = some f → f.source = station) : knownWinner station slot cls frame = none := by
  unfold knownWinner
  split
  · next f => simp [h f rfl rfl]
  · rfl

theorem arrivalSlot_of_ne {cls : ArrivalClass} (h : cls ≠ .good) (frame : Option Frame) (start : Option Nat) :
    arrivalSlot cls frame start = start := by
  unfold arrivalSlot
  split
  · exact absurd rfl h
  · rfl

theorem blame_of_ne {cls : ArrivalClass} (h : cls ≠ .planMismatch) (frame : Option Frame) (s : State) : blame cls frame s = s := by
  unfold blame
  split
  · exact absurd rfl h
  · rfl

/-- A frame that bytes read as lies within its ranges. -/
theorem carried_of_classify {c : Configuration} {bytes : List Byte} {missing : Bool} {f : Frame}
    (h : (classify c bytes missing).2 = some f) : f.carried := by
  simp only [classify] at h
  split at h
  · cases h
  · split at h
    · cases h
    · split at h
      · cases h
      · next g hg =>
        have hcarried := (readFrame_iff.mp hg).1
        split at h
        · cases h
          exact hcarried
        · split at h
          · cases h
          · cases h
            exact hcarried

/-- A fault that is set already, that of the own record, or one in OFF, changes nothing (R78, R85). -/
theorem peerPlanMismatch_same {n : Nat} {s : State}
    (h : s.ctl.state = .off ∨ n = s.ctl.config.station ∨ (s.peer n).faults.planMismatch = true) : peerPlanMismatch n s = s := by
  unfold peerPlanMismatch
  split
  · rfl
  · next hs =>
    unfold setFault overOwn
    split
    · rfl
    · next hn =>
      exact if_pos (((h.resolve_left hs).resolve_left fun he => hn (.inr he)) : (s.peer n).faults.holds .planMismatch = true)

/-- The PEER FAULT event of a first PLAN_MISMATCH. -/
def planFault (n : Nat) (p : PeerRecord) (round : Half) : EventRecord :=
  ⟨.peer, 4, n, 1, 1 + (if p.faults.layoutMismatch then 2 else 0) + (if p.faults.catalogueConflict then 4 else 0), round⟩

theorem peer_modPeer {n : Nat} {s : State} (h0 : n ≠ 0) (hs : n ≠ s.ctl.config.station) (hn : n ≤ s.peers.length)
    (f : PeerRecord → PeerRecord) : (s.modPeer n f).peer n = f (s.peer n) := by
  have hlt : n - 1 < s.peers.length := by omega
  simp only [State.modPeer, if_neg (not_or.mpr ⟨h0, hs⟩), State.peer]
  simp [List.getD_eq_getElem?_getD, List.getElem?_eq_getElem hlt]

/-- The first PLAN_MISMATCH of a peer sets its fault, with the event (R85). -/
theorem peerPlanMismatch_fault {n : Nat} {s : State} (h0 : 1 ≤ n) (hstate : s.ctl.state ≠ .off) (hs : n ≠ s.ctl.config.station)
    (hn : n ≤ s.peers.length) (hf : (s.peer n).faults.planMismatch = false) :
    peerPlanMismatch n s
      = { s with
          peers := s.peers.modify (n - 1) fun q => { q with faults := { q.faults with planMismatch := true } }
          raised := s.raised ++ [planFault n (s.peer n) s.slot.round] } := by
  have hn0 : n ≠ 0 := by omega
  have hvalue (p : PeerRecord) : BitVec.ofNat 32 (p.faults.set .planMismatch).code
      = 1 + (if p.faults.layoutMismatch then 2 else 0) + (if p.faults.catalogueConflict then 4 else 0) := by
    obtain ⟨m, l, c⟩ := p.faults
    cases l <;> cases c <;> rfl
  have hholds : ¬(s.peer n).faults.holds .planMismatch = true := by simp [Faults.holds, hf]
  simp only [peerPlanMismatch, if_neg hstate, setFault, overOwn, if_neg (not_or.mpr ⟨hn0, hs⟩), if_neg hholds,
    peer_modPeer hn0 hs hn, hvalue]
  simp only [State.modPeer, if_neg (not_or.mpr ⟨hn0, hs⟩)]
  rfl

/-! ### Events of one step -/

theorem enterEvent_of_room {h : HostLink} (hroom : h.events.length < 32) (e : EventRecord) :
    enterEvent h e = { h with events := h.events ++ [e] } := if_pos hroom

/-- Ordering events loses none and makes none. -/
theorem interleave_perm : ∀ (n : Nat) (picks : List Nat) (es : List EventRecord), es.length ≤ n →
    (interleave n picks es).Perm es
  | 0, _, es, h => by simp [interleave]
  | _ + 1, _, [], _ => .refl _
  | n + 1, picks, e :: es, hn => by
    unfold interleave
    split
    · exact .refl _
    · simp only []
      generalize hp : ((e :: es).getD (picks.headD 0 % (es.length + 1)) e) = y
      have hy : y ∈ e :: es := by
        have hk : picks.headD 0 % (es.length + 1) < (e :: es).length := Nat.mod_lt _ (Nat.succ_pos _)
        rw [← hp, List.getD_eq_getElem _ _ hk]
        exact List.getElem_mem _
      obtain ⟨x, hx⟩ := Option.isSome_iff_exists.mp (List.find?_isSome.mpr ⟨y, hy, beq_self_eq_true y.block⟩ :
        ((e :: es).find? (·.block == y.block)).isSome = true)
      rw [hx, Option.getD_some]
      obtain ⟨hxp, before, after, hl, hbefore⟩ := List.find?_eq_some_iff_append.mp hx
      have herase : (e :: es).eraseP (·.block == y.block) = before ++ after := by
        rw [hl, List.eraseP_append_right _ (fun b hb => by simpa using hbefore b hb), List.eraseP_cons_of_pos (p := fun z : EventRecord => z.block == y.block) hxp]
      have hlen : (before ++ after).length ≤ n := by
        have := congrArg List.length hl
        simp at this hn ⊢
        omega
      rw [herase, hl]
      exact ((interleave_perm n picks.tail _ hlen).cons x).trans List.perm_middle.symm

theorem interleave_two (picks : List Nat) (a b : EventRecord) :
    interleave 2 picks [a, b] = [a, b] ∨ interleave 2 picks [a, b] = [b, a] := by
  have h := interleave_perm 2 picks [a, b] le_rfl
  obtain ⟨c, d, hcd⟩ := List.length_eq_two.mp h.length_eq
  rw [hcd] at h ⊢
  have hc : c = a ∨ c = b := by simpa using h.mem_iff.mp (List.mem_cons_self : c ∈ [c, d])
  rcases hc with rfl | rfl
  · exact .inl (congrArg (c :: ·) (List.perm_singleton.mp (List.perm_cons _ |>.mp h)))
  · have h' := h.trans (List.Perm.swap c a [])
    exact .inr (congrArg (c :: ·) (List.perm_singleton.mp (List.perm_cons _ |>.mp h')))

/-- Two events that a step raises enter a queue with room for both, in either order. -/
theorem finish_two {s : State} {a b : EventRecord} (h : s.raised = [a, b]) (hroom : s.host.events.length ≤ 30) :
    (finish s).host.events = s.host.events ++ [a, b] ∨ (finish s).host.events = s.host.events ++ [b, a] := by
  have enters (x y : EventRecord) : ([x, y].foldl enterEvent s.host).events = s.host.events ++ [x, y] := by
    have hx := enterEvent_of_room (h := s.host) (by omega) x
    have hy := enterEvent_of_room (h := enterEvent s.host x) (by rw [hx]; simp; omega) y
    rw [List.foldl_cons, List.foldl_cons, List.foldl_nil, hy, hx]
    simp
  rw [finish_host, h]
  rcases interleave_two s.order.eventPicks a b with hi | hi
  · exact .inl ((congrArg (fun es => (List.foldl enterEvent s.host es).events) hi).trans (enters a b))
  · exact .inr ((congrArg (fun es => (List.foldl enterEvent s.host es).events) hi).trans (enters b a))

/-! ### The arrival's end, class by class -/

theorem arrived_slotAt_state (slot : Option Nat) (s : State) (k : Nat) : ((arrived slot s).slotAt k).state = (s.slotAt k).state := by
  obtain ⟨m, hm, hsame⟩ := arrived_eq slot s
  have hk := congrArg SlotRecord.state (sameRecords_getD hsame k)
  rw [hm]
  exact hk

/-- Activity this round owns no slot. -/
theorem sameRecords_ownedCount {l m : List SlotRecord} (h : sameRecords l m) :
    l.countP (·.state.isOwned) = m.countP (·.state.isOwned) := by
  have count (l : List SlotRecord) : (l.map SlotRecord.unmarked).countP (·.state.isOwned) = l.countP (·.state.isOwned) :=
    List.countP_map ..
  rw [← count l, ← count m, h]

theorem blame_outsidePeers (cls : ArrivalClass) (frame : Option Frame) (s : State) :
    (blame cls frame s).outsidePeers = s.outsidePeers := by
  unfold blame
  split
  · unfold peerPlanMismatch
    split
    · rfl
    · exact setFault_outsidePeers ..
  · rfl

theorem blame_slot (cls : ArrivalClass) (frame : Option Frame) (s : State) : (blame cls frame s).slot = s.slot :=
  (congrArg State.slot (blame_outsidePeers cls frame s) :)

theorem blame_ctl (cls : ArrivalClass) (frame : Option Frame) (s : State) : (blame cls frame s).ctl = s.ctl :=
  (congrArg State.ctl (blame_outsidePeers cls frame s) :)

theorem counted_of_noLost {s : State} (h : s.line.lost = []) (cls : ArrivalClass) : counted cls s = s.modLine (countArrival cls) := by
  cases cls <;> simp [counted, State.modLine, countArrival, h]

theorem ofKind_self {k : EventKind} {es : List EventRecord} (h : ∀ e ∈ es, e.kind = k) : ofKind k es = es :=
  List.filter_eq_self.mpr fun e he => by simp [h e he]

theorem ofKind_other {k k' : EventKind} {es : List EventRecord} (h : ∀ e ∈ es, e.kind = k') (hk : k' ≠ k) : ofKind k es = [] :=
  List.filter_eq_nil_iff.mpr fun e he => by simp [h e he, hk]

/-- The end of this arrival as the statement of R12 writes it: the receiver waits, and the slot's record had activity. -/
theorem arrived_afterBit (slot : Option Nat) (s : State) :
    arrived slot (s.afterBit .recessive)
      = { s.afterBit .recessive with
          line := { (s.afterBit .recessive).line with receiver := .waiting }
          slot :=
            match slot with
            | some j =>
              if s.ctl.state = .off then (s.afterBit .recessive).slot
              else { (s.afterBit .recessive).slot with map := s.slot.map.modify j fun q => { q with activityThis := true } }
            | none => (s.afterBit .recessive).slot } := by
  unfold arrived reportActivity
  cases slot with
  | none => split <;> rfl
  | some j =>
    have hmap : (s.afterBit .recessive).slot.map = s.slot.map := by
      rw [afterBit_eq]
    rw [← hmap]
    split
    · next h =>
      have hoff : s.ctl.state = .off := h
      simp only [if_pos hoff]
      rfl
    · next h =>
      have hoff : ¬s.ctl.state = .off := h
      simp only [if_neg hoff]
      rfl

/-- Settles O36. -/
theorem arrivalsAreClassedAndCounted : Obligations.ArrivalsAreClassedAndCounted := by
  intro s r hmid htxe hh hr he c row later marked counts
  have hrow : exec row s = .next (finish (closeArrival r c.1 c.2 later)) := row_of_arrivalEnd hmid htxe hh hr he
  have hcarried : ∀ f, c.2 = some f → f.carried := fun f hf => carried_of_classify hf
  have hraised : s.raised = [] := hmid.1.2.1
  have hmarked (slot : Option Nat) : arrived slot later = marked slot := arrived_afterBit slot s
  have hmarkedRaised (slot : Option Nat) : (marked slot).raised = [] := hraised
  clear_value c
  obtain ⟨cls, frame⟩ := c
  simp only at hrow hcarried
  have gives {t : State} (hclose : closeArrival r cls frame later = t) (ht : t.raised = []) : Gives row s t :=
    ⟨_, hrow, by rw [hclose]; exact finish_visible t ht⟩
  have givesEvent {t : State} {kind : EventKind} {code subject detail : Nat} {v : Word}
      (hclose : closeArrival r cls frame later = raise kind code subject detail v t) (ht : t.raised = []) :
      Gives row s (t.withEvent kind code subject detail v) :=
    ⟨_, hrow, by rw [hclose, finish_raise ht]; rfl⟩
  have hmarkedAt (slot : Option Nat) (k : Nat) : ((marked slot).slotAt k).state = (s.slotAt k).state := by
    have hmap : later.slotAt k = s.slotAt k := by simp only [later, afterBit_eq, State.slotAt]
    rw [← hmarked, arrived_slotAt_state, hmap]
  have hmarkedCount (slot : Option Nat) : (marked slot).ownedCount = s.ownedCount := by
    obtain ⟨m, hm, hsame⟩ := arrived_eq slot later
    have hmap : later.slot.map = s.slot.map := by simp only [later, afterBit_eq]
    rw [hmap] at hsame
    rw [← hmarked, hm]
    exact sameRecords_ownedCount hsame
  have hround (slot : Option Nat) : (marked slot).slot.round = s.slot.round := by
    obtain ⟨m, hm, -⟩ := arrived_eq slot later
    rw [← hmarked, hm]
    simp only [later, afterBit_eq]
  have hlostMarked (slot : Option Nat) : (marked slot).line.lost = s.line.lost := measure_lost .recessive s.line
  have other (hown : r.own = false) (hgood : ∀ f, cls = .good → frame = some f → f.source = s.ctl.config.station) :
      closeArrival r cls frame later
        = reportLost cls frame s.line.lost (blame cls frame (counted cls (marked (arrivalSlot cls frame r.slot)))) := by
    rw [closeArrival_of_other hown, hmarked, otherArrival_eq (s := marked _) _ hgood, hlostMarked]
  refine ⟨fun hown => ?_, fun hown hlost => ?_, fun x n hown hlost hon hkind hst => ?_, fun x n hown hlost hmember hkind hst hgood hpeers => ?_⟩
  · exact gives ((closeArrival_of_own hown cls frame later).trans (hmarked _)) (hmarkedRaised _)
  · intro t
    have close (hgood : ∀ f, cls = .good → frame = some f → f.source = s.ctl.config.station) :
        closeArrival r cls frame later
          = blame cls frame ((marked (arrivalSlot cls frame r.slot)).modLine (countArrival cls)) := by
      rw [other hown hgood, hlost, counted_of_noLost ((hlostMarked _).trans hlost)]
      rfl
    refine ⟨?_, ?_, ?_, ?_⟩
    · intro h
      obtain rfl : cls = .badCrc := h
      exact gives (close (by simp)) hraised
    · intro h
      obtain rfl : cls = .format := h
      exact gives (close (by simp)) hraised
    · rintro f ⟨⟩ hs
      exact gives (close (by rintro g - ⟨⟩; exact hs)) hraised
    · rintro f ⟨⟩ u p
      have hclose := close (by simp)
      refine ⟨fun h => gives (hclose.trans (peerPlanMismatch_same h)) hraised, fun hon hs hn hf => ?_⟩
      refine givesEvent (t := { u with peers := _ }) (hclose.trans ?_) hraised
      exact peerPlanMismatch_fault (hcarried f rfl).source_pos hon hs hn hf
  · intro t freedOf freed
    have close (hgood : ∀ f, cls = .good → frame = some f → f.source = s.ctl.config.station) :
        closeArrival r cls frame later
          = raise .slot 3 x.slot 0 1 ((blame cls frame (counted cls (marked (arrivalSlot cls frame r.slot)))).modSlotAt x.slot
              (givenUp x)) := by
      rw [other hown hgood, hlost]
      refine reportEnd_lostClaim hkind (n := n) ?_ (knownWinner_eq_none fun f h1 h2 => ?_)
      · rw [State.slotAt, blame_slot, ← hst, ← hmarkedAt]
        rfl
      · rw [blame_ctl]
        exact hgood f h1 h2
    refine ⟨?_, ?_, ?_, ?_⟩
    · rintro f ⟨⟩ hs t
      exact givesEvent (close (by rintro g - ⟨⟩; exact hs)) hraised
    · intro h
      obtain rfl : cls = .badCrc := h
      exact givesEvent (close (by simp)) hraised
    · intro h
      obtain rfl : cls = .format := h
      exact givesEvent (close (by simp)) hraised
    · rintro f ⟨⟩ u p
      have hclose := close (by simp)
      refine ⟨fun h => givesEvent (hclose.trans ?_) hraised, fun hs hn hf hroom => ?_⟩
      · exact congrArg (fun y : State => raise .slot 3 x.slot 0 1 (y.modSlotAt x.slot (givenUp x))) 
          (peerPlanMismatch_same (s := counted .planMismatch (marked r.slot)) (.inr h))
      · have hfault := peerPlanMismatch_fault (s := counted .planMismatch (marked r.slot)) (hcarried f rfl).source_pos hon hs hn hf
        have hblamed : blame .planMismatch (some f) (counted .planMismatch (marked r.slot)) = _ := hfault
        rw [show arrivalSlot .planMismatch (some f) r.slot = r.slot from rfl, hblamed] at hclose
        refine ⟨_, hrow, ?_⟩
        rw [hclose]
        refine ⟨?_, ?_, ?_, ?_, ?_, ?_, finish_two ?_ hroom⟩
        iterate 6 rw [finish_frame]; rfl
        show s.raised ++ [planFault f.source (s.peer f.source) (marked r.slot).slot.round]
          ++ [⟨.slot, 3, x.slot, 0, 1, (marked r.slot).slot.round⟩] = _
        rw [hraised, hround]
        rfl
  · intro t line blamed faulty faults reported freed lost
    have hfaults : blame cls frame (counted cls t) = { faulty with raised := s.raised ++ faults } := by
      have none_blamed (hb : blamed = none) (h : blame cls frame (counted cls t) = counted cls t) :
          blame cls frame (counted cls t) = { faulty with raised := s.raised ++ faults } := by
        have hfaulty : faulty = { t with line := line } := by simp only [faulty, hb]
        have hnone : faults = [] := by simp only [faults, hb]; rfl
        rw [h, hfaulty, hnone, List.append_nil]
        cases cls <;> rfl
      cases cls with
      | good => exact none_blamed rfl (blame_of_ne (by simp) ..)
      | badCrc => exact none_blamed rfl (blame_of_ne (by simp) ..)
      | format => exact none_blamed rfl (blame_of_ne (by simp) ..)
      | planMismatch =>
        cases frame with
        | none => exact none_blamed rfl rfl
        | some f =>
          by_cases hsame : f.source = s.ctl.config.station ∨ (s.peer f.source).faults.planMismatch = true
          · exact none_blamed (if_pos hsame) (peerPlanMismatch_same (s := counted .planMismatch t) (.inr hsame))
          · have hb : blamed = some f.source := if_neg hsame
            rw [not_or, Bool.not_eq_true] at hsame
            have hfault := peerPlanMismatch_fault (s := counted .planMismatch t) (hcarried f rfl).source_pos
              (by rw [show (counted .planMismatch t).ctl = s.ctl from rfl, hmember]; simp) hsame.1 (hpeers f rfl) hsame.2
            have hfaulty : faulty = { t with
                line := line
                peers := s.peers.modify (f.source - 1) fun q => { q with faults := { q.faults with planMismatch := true } } } := by
              simp only [faulty, hb]
            have hone : faults = [planFault f.source (s.peer f.source) s.slot.round] := by
              simp only [faults, hb]
              rfl
            refine hfault.trans ?_
            rw [hfaulty, hone, show (counted .planMismatch t).slot.round = s.slot.round from hround _]
            rfl
    have close : closeArrival r cls frame later = reportEnd x (.lost cls frame) { faulty with raised := faults } := by
      rw [other hown fun f h1 h2 => hgood f (by rw [h1, h2]), hlost]
      show reportEnd x (.lost cls frame) (blame cls frame (counted cls t)) = _
      rw [hfaults, hraised, List.nil_append]
    obtain ⟨peers, hfaulty⟩ : ∃ peers, faulty = { t with line := line, peers := peers } := by
      rcases Option.eq_none_or_eq_some blamed with hb | ⟨m, hb⟩
      · exact ⟨t.peers, by simp only [faulty, hb]⟩
      · exact ⟨_, by simp only [faulty, hb]; rfl⟩
    clear_value faulty
    subst hfaulty
    have hpeerFaults : ∀ e ∈ faults, e.kind = .peer := by
      intro e he
      simp only [faults, List.mem_map] at he
      obtain ⟨m, -, rfl⟩ := he
      rfl
    have report {record : SlotRecord → SlotRecord} {ctl : StationControl} {slots stations : List EventRecord}
        (h : reportEnd x (.lost cls frame) { t with line := line, peers := peers, raised := faults }
          = { t with
              line := line, peers := peers, ctl := ctl, slot := { t.slot with map := t.slot.map.modify x.slot record }
              raised := faults ++ slots ++ stations })
        (hslots : ∀ e ∈ slots, e.kind = .slot) (hstations : ∀ e ∈ stations, e.kind = .station ∧ e.code = 1) :
        reported record ctl slots stations := by
      refine ⟨_, hrow, ?_⟩
      rw [close, h]
      have hstationKind : ∀ e ∈ stations, e.kind = .station := fun e he => (hstations e he).1
      refine ⟨?_, _, finish_host _, ?_, ?_, ?_, ?_⟩
      · rw [finish_frame]
        simp only [State.visible, hmarkedRaised, t]
        rfl
      · rw [interleave_ofKind (by simp)]
        simp only [ofKind_append, ofKind_self hpeerFaults, ofKind_other hslots (k := .peer) (by simp),
          ofKind_other hstationKind (k := .peer) (by simp), List.append_nil]
      · rw [interleave_ofKind (by simp)]
        simp only [ofKind_append, ofKind_self hslots, ofKind_other hpeerFaults (k := .slot) (by simp),
          ofKind_other hstationKind (k := .slot) (by simp), List.append_nil, List.nil_append]
      · rw [interleave_stationEvents (b := 2)]
        · simp only [ofKind_append, ofKind_self hstationKind, ofKind_other hpeerFaults (k := .station) (by simp),
            ofKind_other hslots (k := .station) (by simp), List.nil_append]
        · intro e he hk
          rcases List.mem_append.mp he with he | he
          · rcases List.mem_append.mp he with he | he
            · simp [hpeerFaults e he] at hk
            · simp [hslots e he] at hk
          · simp [EventRecord.block, hstations e he]
      · rw [(interleave_perm _ _ _ le_rfl).length_eq]
        simp only [List.length_append]
    have hat : (({ t with line := line, peers := peers, raised := faults } : State).slotAt x.slot).state = .owned n :=
      (hmarkedAt _ x.slot).trans hst
    have hcount : ({ t with line := line, peers := peers, raised := faults } : State).ownedCount = s.ownedCount := hmarkedCount _
    have hunknown : knownWinner s.ctl.config.station x.slot cls frame = none :=
      knownWinner_eq_none fun f h1 h2 => hgood f (by rw [h1, h2])
    refine ⟨fun hn => ?_, fun hn hmany => ?_, fun hn hone => ?_⟩
    · subst hn
      exact report ((reportEnd_firstLoss hkind hat hmember).trans (by simp only [List.append_nil]; rfl)) (by simp) (by simp)
    all_goals
      have hend := reportEnd_secondLoss (cls := cls) (frame := frame) hkind hat hn hmember hunknown
      have hlostSlot : lostSlot x { t with line := line, peers := peers, raised := faults }
          = { t with
              line := line, peers := peers, slot := { t.slot with map := t.slot.map.modify x.slot freed }
              raised := faults ++ [lost] } := by
        simp only [lostSlot, hcount, lost]
        rw [← hround]
        rfl
      rw [hcount, hlostSlot] at hend
    · refine report (hend.trans ?_) (slots := [lost]) (stations := []) (by simp [lost]) (by simp)
      rw [if_neg (by omega), List.append_nil]
      rfl
    · refine report (hend.trans ?_) (slots := [lost]) (by simp [lost]) (by simp)
      rw [if_pos (by omega), ← hround]
      rfl

end Sys2Proof.Machine

namespace Sys2Proof.Machine

/-! ## What the collector's operations are made of

Every trigger, report and end the collector takes is a chain of five moves. What each move keeps, every operation keeps. -/

/-- One move of the collector: an event, the triggers of B that wait, a unit that is left not COLLECTING, places that are decided, and the
beginning of a collection while the other unit has none in course. -/
inductive Move (s : State) : State → Prop
  | event (c n d : Nat) (v : Word) : Move s (raise .snapshot c n d v s)
  | calls (n : Nat) (b : Bool) : Move s { s with called := n, began := b }
  | rest (u : UnitId) (f : SnapshotUnit → SnapshotUnit) (h : (f (s.unit u)).state ≠ .collecting) : Move s (s.modUnit u f)
  | decide (u : UnitId) (f : SnapshotUnit → SnapshotUnit) (hstate : (f (s.unit u)).state = (s.unit u).state)
      (hplaces : ∀ p ∈ (f (s.unit u)).places, p.status = .pending → p ∈ (s.unit u).places) : Move s (s.modUnit u f)
  | start (u : UnitId) (h : (s.unit u.other).state ≠ .collecting) : Move s (startCollection u s)

/-- The collector's moves, one after another. -/
def Moves : State → State → Prop := Relation.ReflTransGen Move

theorem Moves.refl (s : State) : Moves s s := Relation.ReflTransGen.refl

theorem Moves.trans {s t u : State} (h : Moves s t) (g : Moves t u) : Moves s u := Relation.ReflTransGen.trans h g

theorem Move.moves {s t : State} (h : Move s t) : Moves s t := .single h

/-- A change of a unit that touches neither its state nor its places. -/
theorem modUnit_moves {u : UnitId} {f : SnapshotUnit → SnapshotUnit} {s : State} (hstate : (f (s.unit u)).state = (s.unit u).state)
    (hplaces : (f (s.unit u)).places = (s.unit u).places) : Moves s (s.modUnit u f) :=
  (Move.decide u f hstate fun _ hp _ => hplaces ▸ hp).moves

theorem closeCollection_moves (u : UnitId) (s : State) : Moves s (closeCollection u s) := by
  refine (Move.rest u _ ?_).moves.trans (Move.event ..).moves
  dsimp only
  split <;> simp

theorem endCollection_moves (u : UnitId) (s : State) : Moves s (endCollection u s) := by
  have hclose := closeCollection_moves u s
  simp only [endCollection]
  split
  · have hfree : ((closeCollection u s).unit u.other.other).state ≠ .collecting := by
      rw [UnitId.other_other]
      rcases closeCollection_ended u s with h | h <;> simp [h]
    have hstart := hclose.trans (Move.start u.other hfree).moves
    split
    · exact hstart.trans (closeCollection_moves _ _)
    · exact hstart
  · exact hclose

theorem judgeEnd_moves (u : UnitId) (s : State) : Moves s (judgeEnd u s) := by
  unfold judgeEnd
  split
  · exact endCollection_moves u s
  · exact .refl s

theorem dropTrigger_moves (u : UnitId) (s : State) : Moves s (dropTrigger u s) := modUnit_moves rfl rfl

theorem actTrigger_moves (u : UnitId) (s : State) : Moves s (actTrigger u s) := by
  unfold actTrigger
  split
  case h_3 =>
    split
    · split
      · exact (Move.rest u _ (by simp)).moves
      · exact dropTrigger_moves u s
    · next h => exact (Move.start u h).moves
  case h_1 | h_2 => exact .refl s
  all_goals exact dropTrigger_moves u s

theorem answerCalls_moves (n : Nat) (s : State) : Moves s (answerCalls n s) := by
  induction n generalizing s with
  | zero => exact .refl s
  | succ n ih => exact ((actTrigger_moves .b s).trans (judgeEnd_moves .b _)).trans (ih _)

theorem answerCall_moves (s : State) : Moves s (answerCall s) :=
  (Move.calls 0 s.began).moves.trans (answerCalls_moves s.called _)

theorem takeCall_moves (s : State) : Moves s (takeCall s) :=
  (answerCall_moves s).trans (Move.calls (answerCall s).called false).moves

theorem triggerA_moves (s : State) : Moves s (triggerA s) :=
  ((Move.calls s.called (s.began || s.beginsA)).moves.trans (actTrigger_moves .a _)).trans (answerCall_moves _)

theorem triggerB_moves (s : State) : Moves s (triggerB s) := by
  unfold triggerB
  split
  · exact (Move.calls (s.called + 1) s.began).moves
  · split
    · exact (Move.calls 1 s.began).moves
    · split
      · exact dropTrigger_moves .b s
      · exact actTrigger_moves .b s

theorem Moves.ite {p : Prop} [Decidable p] {s t : State} (h : Moves s t) : Moves s (if p then t else s) := by
  split
  · exact h
  · exact .refl s

theorem giveTriggers_moves (a b : Bool) (s : State) : Moves s (giveTriggers a b s) :=
  (((triggerA_moves s).ite.trans (triggerB_moves _).ite).trans (judgeEnd_moves .a _).ite).trans (judgeEnd_moves .b _).ite

/-- A place that is not pending any more, or that was there before. -/
theorem mem_of_missPlace {round : Half} {p : Place} (h : (missPlace round p).status = .pending) : missPlace round p = p := by
  unfold missPlace at h ⊢
  split at h
  · cases h
  · next hp => exact if_neg hp

theorem missEntry_moves (i : Nat) (s : State) : Moves s (missEntry i s) := by
  unfold missEntry
  split
  · exact .refl s
  · refine (Move.decide _ _ rfl fun p hp hpending => ?_).moves.trans (judgeEnd_moves _ _)
    obtain ⟨q, hq, rfl⟩ := List.mem_map.mp hp
    by_cases hi : q.entry = i
    · rw [if_pos hi] at hpending ⊢
      rwa [mem_of_missPlace hpending]
    · rwa [if_neg hi]

theorem countPeriod_places (x : SnapshotUnit) : x.countPeriod.1.places = x.places := by
  unfold SnapshotUnit.countPeriod
  split
  · split <;> rfl
  all_goals rfl

theorem takePeriods_moves (s : State) : ∃ t, t.outsideUnits = { s with due := t.due }.outsideUnits ∧ t.raised = s.raised ∧ t.unitA = s.unitA
    ∧ t.unitB = s.unitB ∧ Moves t (takePeriods s) := by
  unfold takePeriods
  split
  · refine ⟨s.modDue fun d => { d with periods := false }, rfl, rfl, rfl, rfl, ?_⟩
    refine (Moves.trans (modUnit_moves ?_ ?_) (modUnit_moves ?_ ?_)).trans (giveTriggers_moves ..)
    · exact countPeriod_state _
    · exact countPeriod_places _
    · exact countPeriod_state _
    · exact countPeriod_places _
  · exact ⟨s, rfl, rfl, rfl, rfl, .refl s⟩

/-! ## What the moves keep -/

theorem UnitId.eq_other {u v : UnitId} (h : v ≠ u) : v = u.other := by
  cases u <;> cases v <;> simp_all [UnitId.other]

theorem unit_modUnit_ne {u v : UnitId} (h : v ≠ u) (f : SnapshotUnit → SnapshotUnit) (s : State) :
    (s.modUnit u f).unit v = s.unit v := by
  rw [UnitId.eq_other h]
  exact unit_modUnit_other u f s

/-- A predicate on states that every move keeps, every chain of moves keeps. -/
theorem Moves.keeps {P : State → Prop} (h : ∀ s t, Move s t → P s → P t) {s t : State} (hm : Moves s t) (hs : P s) : P t := by
  induction hm with
  | refl => exact hs
  | tail _ hlast ih => exact h _ _ hlast ih

/-- Not both units are COLLECTING (R152). -/
def State.oneCollects (s : State) : Prop := ¬(s.unitA.state = .collecting ∧ s.unitB.state = .collecting)

theorem oneCollects_iff (u : UnitId) (s : State) :
    s.oneCollects ↔ ¬((s.unit u).state = .collecting ∧ (s.unit u.other).state = .collecting) := by
  cases u with
  | a => exact Iff.rfl
  | b => rw [State.oneCollects, and_comm]; rfl

theorem Move.oneCollects {s t : State} (h : Move s t) (hs : s.oneCollects) : t.oneCollects := by
  cases h with
  | event | calls => exact hs
  | rest u f hu => simp [oneCollects_iff u, hu]
  | decide u f hu => simpa [oneCollects_iff u, hu] using hs
  | start u hu => simp [oneCollects_iff u, hu]

theorem Moves.oneCollects {s t : State} (h : Moves s t) (hs : s.oneCollects) : t.oneCollects :=
  h.keeps (fun _ _ h => h.oneCollects) hs

theorem Move.image {s t : State} (h : Move s t) : t.image = s.image := by
  cases h with
  | event | calls => rfl
  | rest u | decide u | start u => cases u <;> rfl

theorem Moves.image {s t : State} (h : Moves s t) : t.image = s.image :=
  h.keeps (P := fun u => u.image = s.image) (fun _ _ h hu => h.image.trans hu) rfl

/-- The pending places of the collections in course are of entries that take values, or of the entry that is passing. -/
def State.awaits (passing : Option Nat) (s : State) : Prop :=
  ∀ u, (s.unit u).state = .collecting → ∀ p ∈ (s.unit u).places, p.status = .pending →
    (s.entry p.entry).state.served = true ∨ passing = some p.entry

theorem Move.awaits {passing : Option Nat} {s t : State} (h : Move s t) (hs : s.awaits passing) : t.awaits passing := by
  have hentry : ∀ i, t.entry i = s.entry i := fun i => by rw [State.entry, h.image, State.entry]
  intro v hv p hp hpending
  rw [hentry]
  cases h with
  | event | calls => exact hs v hv p hp hpending
  | rest u f hu =>
    by_cases heq : v = u
    · subst heq
      rw [unit_modUnit_same] at hv
      exact absurd hv hu
    · rw [unit_modUnit_ne heq] at hv hp
      exact hs v hv p hp hpending
  | decide u f hu hplaces =>
    by_cases heq : v = u
    · subst heq
      rw [unit_modUnit_same] at hv hp
      exact hs v (hu ▸ hv) p (hplaces p hp hpending) hpending
    · rw [unit_modUnit_ne heq] at hv hp
      exact hs v hv p hp hpending
  | start u hu =>
    by_cases heq : v = u
    · subst heq
      rw [startCollection, unit_modUnit_same] at hp
      obtain ⟨i, -, rfl⟩ := List.mem_map.mp hp
      unfold startPlace at hpending ⊢
      split at hpending
      · next hi => exact .inl (by rw [if_pos hi]; exact hi)
      · cases hpending
    · rw [startCollection, unit_modUnit_ne heq] at hv hp
      exact hs v hv p hp hpending

theorem Moves.awaits {passing : Option Nat} {s t : State} (h : Moves s t) (hs : s.awaits passing) : t.awaits passing :=
  h.keeps (fun _ _ h => h.awaits) hs

/-- From `s` to `t` events have been raised, of all of which `p` holds. -/
def Raises (p : EventRecord → Prop) (s t : State) : Prop := ∃ es, t.raised = s.raised ++ es ∧ ∀ e ∈ es, p e

theorem Raises.of_eq {p : EventRecord → Prop} {s t : State} (h : t.raised = s.raised) : Raises p s t := ⟨[], by simp [h], by simp⟩

theorem Raises.trans {p : EventRecord → Prop} {s t u : State} (h : Raises p s t) (g : Raises p t u) : Raises p s u := by
  obtain ⟨es, hes, hp⟩ := h
  obtain ⟨fs, hfs, hq⟩ := g
  refine ⟨es ++ fs, by rw [hfs, hes, List.append_assoc], fun e he => ?_⟩
  exact (List.mem_append.mp he).elim (hp e) (hq e)

theorem Raises.mono {p q : EventRecord → Prop} {s t : State} (h : Raises p s t) (hpq : ∀ e, p e → q e) : Raises q s t := by
  obtain ⟨es, hes, hp⟩ := h
  exact ⟨es, hes, fun e he => hpq e (hp e he)⟩

theorem raise_raises {p : EventRecord → Prop} {k : EventKind} {c n d : Nat} {v : Word} {s : State} (h : p ⟨k, c, n, d, v, s.slot.round⟩) :
    Raises p s (raise k c n d v s) := ⟨_, rfl, by simpa using h⟩

theorem Move.raises {s t : State} (h : Move s t) : Raises (·.kind = .snapshot) s t := by
  cases h with
  | event => exact raise_raises rfl
  | calls => exact .of_eq rfl
  | rest u | decide u | start u => exact .of_eq (by cases u <;> rfl)

/-- The collector raises SNAPSHOT events only (R157, R162). -/
theorem Moves.raises {s t : State} (h : Moves s t) : Raises (·.kind = .snapshot) s t :=
  h.keeps (P := Raises _ s) (fun _ _ h hs => hs.trans h.raises) (.of_eq rfl)

end Sys2Proof.Machine

namespace Sys2Proof.Machine

/-! ## An entry's passage, its watch and the collector -/

theorem entry_modEntry (i j : Nat) (f : ImageEntry → ImageEntry) (s : State) :
    (s.modEntry i f).entry j = if i = j ∧ j < s.image.length then f (s.entry j) else s.entry j := by
  simp only [State.entry, modEntry_image, List.getD_eq_getElem?_getD, List.getElem?_modify]
  by_cases hi : i = j
  · by_cases hj : j < s.image.length
    · simp [hi, hj]
    · simp [hi, hj]
  · simp [hi]

/-- Changes of an entry that agree on what stands there. -/
theorem modify_entry_congr {s : State} {i : Nat} {f g : ImageEntry → ImageEntry} (h : f (s.entry i) = g (s.entry i)) :
    s.image.modify i g = s.image.modify i f := by
  apply List.ext_getElem?
  intro j
  simp only [List.getElem?_modify]
  split
  · next hj =>
    subst hj
    cases hget : s.image[i]? with
    | none => rfl
    | some e =>
      have he : s.entry i = e := by simp [State.entry, List.getD_eq_getElem?_getD, hget]
      simp [← he, h]
  · rfl

/-- An entry that is not FREE lies in the table. -/
theorem lt_of_entry {s : State} {i : Nat} (h : (s.entry i).state ≠ .free) : i < s.image.length := by
  by_contra hi
  exact h (by rw [State.entry, List.getD_eq_default _ _ (Nat.not_lt.mp hi)]; rfl)

/-- An entry whose watch has been placed on its value in a format (R118). -/
def ImageEntry.placed (f : Format) (e : ImageEntry) : ImageEntry :=
  { e with watch := e.watch.map fun w => { w with zone := w.place f e.value } }

theorem placed_of_unwatched {f : Format} {e : ImageEntry} (h : e.watch = none) : e.placed f = e := by
  obtain ⟨state, source, point, limit, age, value, updates, fallback, layout, watch⟩ := e
  cases h
  rfl

/-- An evaluation places the watch, and may raise WATCH and give triggers (R118, R120, R125). -/
theorem evaluateWatch_cases (i : Nat) (f : Format) (s : State) :
    evaluateWatch i f s = s ∧ (s.entry i).watch = none
      ∨ evaluateWatch i f s = s.modEntry i (·.placed f) ∨ ∃ a b c d v,
          evaluateWatch i f s = giveTriggers a b (raise .watch c i d v (s.modEntry i (·.placed f))) := by
  cases hw : (s.entry i).watch with
  | none => exact .inl ⟨by simp only [evaluateWatch, hw], rfl⟩
  | some w =>
    have hmod : s.modEntry i (fun e => { e with watch := some { w with zone := w.place f (s.entry i).value } })
        = s.modEntry i (·.placed f) := by
      rw [State.modEntry, modify_entry_congr (g := fun e => _) (f := (·.placed f)) (by simp [ImageEntry.placed, hw])]
      rfl
    simp only [evaluateWatch, hw, hmod]
    right
    split
    · exact .inr ⟨_, _, _, _, _, rfl⟩
    · exact .inl rfl

theorem evaluateWatch_raises (i : Nat) (f : Format) (s : State) :
    Raises (fun e => e.kind = .watch ∨ e.kind = .snapshot) s (evaluateWatch i f s) := by
  rcases evaluateWatch_cases i f s with ⟨h, -⟩ | h | ⟨a, b, c, d, v, h⟩ <;> rw [h]
  · exact .of_eq rfl
  · exact .of_eq rfl
  · exact (raise_raises (s := s.modEntry i (·.placed f)) (.inl rfl)).trans ((giveTriggers_moves a b _).raises.mono fun e => .inr)

theorem evaluateWatch_image (i : Nat) (f : Format) (s : State) :
    (evaluateWatch i f s).image = s.image.modify i (·.placed f) := by
  rcases evaluateWatch_cases i f s with ⟨h, hw⟩ | h | ⟨a, b, c, d, v, h⟩ <;> rw [h]
  · refine (List.modify_id ..).symm.trans (modify_entry_congr (f := (·.placed f)) (g := id) ?_)
    exact placed_of_unwatched hw
  · rfl
  · rw [(giveTriggers_moves a b _).image]
    rfl

/-- The units see of an evaluation only what triggers they are given. -/
theorem evaluateWatch_keeps {P : State → Prop} (hmove : ∀ s t, Move s t → P s → P t)
    (hraise : ∀ s c i d v, P s → P (raise .watch c i d v s)) (hplace : ∀ s i f, P s → P (s.modEntry i (·.placed f)))
    (i : Nat) (f : Format) {s : State} (hs : P s) : P (evaluateWatch i f s) := by
  rcases evaluateWatch_cases i f s with ⟨h, -⟩ | h | ⟨a, b, c, d, v, h⟩ <;> rw [h]
  · exact hs
  · exact hplace _ _ _ hs
  · exact (giveTriggers_moves a b _).keeps hmove (hraise _ _ _ _ _ (hplace _ _ _ hs))

theorem reportBoth_keeps {P : State → Prop} {f g : State → State} (hf : ∀ s, P s → P (f s)) (hg : ∀ s, P s → P (g s)) (i : Nat)
    {s : State} (hs : P s) : P (reportBoth i f g s) := by
  unfold reportBoth
  split
  · exact hg _ (hf _ hs)
  · exact hf _ (hg _ hs)

/-- The report of a substitution to the entry's watch (R113, R116, R119). -/
def reportSubstitution (i : Nat) (e : ImageEntry) (s : State) : State :=
  match e.layout with
  | some l => if e.state = .fresh ∧ e.fallback ≠ none then evaluateWatch i l.format s else s
  | none => s

theorem reportSubstitution_cases (i : Nat) (e : ImageEntry) (s : State) :
    reportSubstitution i e s = s
      ∨ ∃ l, e.layout = some l ∧ e.state = .fresh ∧ e.fallback ≠ none ∧ reportSubstitution i e s = evaluateWatch i l.format s := by
  unfold reportSubstitution
  split
  · next l hl =>
    split
    · next h => exact .inr ⟨l, hl, h.1, h.2, rfl⟩
    · exact .inl rfl
  · exact .inl rfl

/-- A passage out of the states that take values, without an event. -/
theorem passEntry_unserved {st : EntryState} (hst : st.unserved = true) (i : Nat) (s : State) :
    passEntry i st none s = reportBoth i (reportSubstitution i (s.entry i)) (missEntry i) (s.modEntry i (·.pass st)) := by
  simp only [passEntry, hst, if_true]
  rfl

theorem unserved_iff (st : EntryState) : st.unserved = true ↔ ¬(st = .waiting ∨ st = .fresh ∨ st = .stale) := by
  cases st <;> simp [EntryState.unserved, EntryState.served]

/-- A passage without a substitution to evaluate (R99, R113, R121). -/
theorem pass_eq_passed {e : ImageEntry} (st : EntryState) (h : ∀ l, e.layout = some l → e.state = .fresh → e.fallback = none) :
    e.pass st = e.passed st := by
  obtain ⟨state, source, point, limit, age, value, updates, fallback, layout, watch⟩ := e
  have hserved := unserved_iff st
  by_cases hst : st = .waiting ∨ st = .fresh ∨ st = .stale
  · have hu : st.unserved = false := by simpa [hst] using hserved
    rcases fallback with _ | v <;> rcases layout with _ | l <;> rcases watch with _ | w <;>
      simp_all [ImageEntry.pass, ImageEntry.passed]
  · have hu : st.unserved = true := hserved.mpr hst
    rcases fallback with _ | v <;> rcases layout with _ | l <;> rcases watch with _ | w <;>
      simp_all [ImageEntry.pass, ImageEntry.passed, Watch.forget]

/-- A passage whose substitution is evaluated (R113, R119). -/
theorem placed_pass {e : ImageEntry} {l : EntryLayout} (st : EntryState) (hl : e.layout = some l) (hs : e.state = .fresh)
    (hf : e.fallback ≠ none) : (e.pass st).placed l.format = e.passed st := by
  obtain ⟨v, hv⟩ := Option.ne_none_iff_exists'.mp hf
  by_cases hst : st = .waiting ∨ st = .fresh ∨ st = .stale
  · have hu : st.unserved = false := by simpa [hst] using unserved_iff st
    simp [ImageEntry.pass, ImageEntry.passed, ImageEntry.placed, hl, hs, hv, hst, hu]
  · have hu : st.unserved = true := (unserved_iff st).mpr hst
    simp [ImageEntry.pass, ImageEntry.passed, ImageEntry.placed, hl, hs, hv, hst, hu]

/-- A passage with its substitution's report is `ImageEntry.passed`. -/
theorem reportSubstitution_image {i : Nat} {st : EntryState} {s t : State} (ht : t.image = s.image.modify i (·.pass st)) :
    (reportSubstitution i (s.entry i) t).image = s.image.modify i (·.passed st) := by
  by_cases hsub : ∃ l, (s.entry i).layout = some l ∧ (s.entry i).state = .fresh ∧ (s.entry i).fallback ≠ none
  · obtain ⟨l, hl, hs, hf⟩ := hsub
    simp only [reportSubstitution, hl]
    rw [if_pos ⟨hs, hf⟩, evaluateWatch_image, ht, List.modify_modify_eq]
    exact modify_entry_congr (placed_pass st hl hs hf).symm
  · have hplain : ∀ l, (s.entry i).layout = some l → (s.entry i).state = .fresh → (s.entry i).fallback = none :=
      fun l hl hs => by_contra fun hf => hsub ⟨l, hl, hs, hf⟩
    rcases reportSubstitution_cases i (s.entry i) t with h | ⟨l, hl, hs, hf, -⟩
    · rw [h, ht]
      exact modify_entry_congr (pass_eq_passed st hplain).symm
    · exact absurd ⟨l, hl, hs, hf⟩ hsub

theorem missEntry_image (i : Nat) (s : State) : (missEntry i s).image = s.image := (missEntry_moves i s).image

/-- The entry passes as `ImageEntry.passed` says, in either order of its two reports (R116). -/
theorem passEntry_image {st : EntryState} (hst : st.unserved = true) (i : Nat) (s : State) :
    (passEntry i st none s).image = s.image.modify i (·.passed st) := by
  rw [passEntry_unserved hst, reportBoth]
  split
  · rw [missEntry_image]
    exact reportSubstitution_image rfl
  · exact reportSubstitution_image (missEntry_image ..)

/-- What entering OFF makes of an entry (R112, R113, R121). -/
def ImageEntry.offed (e : ImageEntry) : ImageEntry :=
  if e.state = .free ∨ e.state = .resolving then e else e.passed .resolving

theorem offed_offed (e : ImageEntry) : e.offed.offed = e.offed := by
  by_cases h : e.state = .free ∨ e.state = .resolving
  · have he : e.offed = e := if_pos h
    rw [he, he]
  · have he : e.offed = e.passed .resolving := if_neg h
    rw [he]
    exact if_pos (.inr rfl)

theorem entryOff_image (s : State) (i : Nat) : (entryOff s i).image = s.image.modify i ImageEntry.offed := by
  unfold entryOff
  split
  · next h =>
    refine (List.modify_id ..).symm.trans (modify_entry_congr (f := ImageEntry.offed) (g := id) ?_)
    exact if_pos h
  · next h =>
    rw [passEntry_image rfl]
    refine modify_entry_congr (f := ImageEntry.offed) ?_
    exact if_neg h

theorem foldl_entryOff_image (is : List Nat) (s : State) :
    (is.foldl entryOff s).image = is.foldl (fun l i => l.modify i ImageEntry.offed) s.image := by
  induction is generalizing s with
  | nil => rfl
  | cons i is ih => rw [List.foldl_cons, List.foldl_cons, ih, entryOff_image]

theorem collectorOff_image (s : State) : (collectorOff s).image = s.image := (congrArg State.image (collectorOff_outsideUnits s) :)

/-- Every entry passes, whenever the collector reacts (R112, R162). -/
theorem imageOff_image (s : State) : (imageOff s).image = s.image.map ImageEntry.offed := by
  simp only [imageOff]
  rw [foldl_entryOff_image, collectorOff_image, foldl_entryOff_image, ← List.foldl_append, List.take_append_drop]
  apply List.ext_getElem?
  intro j
  rw [getElem?_foldl_modify offed_offed, List.getElem?_map]
  split
  · rfl
  · next h => simp [List.getElem?_eq_none (Nat.not_lt.mp fun hj => h (List.mem_range.mpr hj))]

end Sys2Proof.Machine

namespace Sys2Proof.Machine

/-! ## The collector while the station enters OFF (R112, R155, R162) -/

theorem entryOff_cases (s : State) (i : Nat) :
    entryOff s i = s
      ∨ entryOff s i
        = reportBoth i (reportSubstitution i (s.entry i)) (missEntry i) (s.modEntry i (·.pass .resolving)) := by
  unfold entryOff
  split
  · exact .inl rfl
  · exact .inr (passEntry_unserved rfl i s)

/-- What every move of the collector keeps, and a WATCH and a change of an entry too, an entry's passage keeps. -/
theorem entryOff_keeps {P : State → Prop} (hmove : ∀ s t, Move s t → P s → P t)
    (hraise : ∀ s c i d v, P s → P (raise .watch c i d v s)) (hentry : ∀ s i f, P s → P (s.modEntry i f))
    (i : Nat) {s : State} (hs : P s) : P (entryOff s i) := by
  rcases entryOff_cases s i with h | h <;> rw [h]
  · exact hs
  · refine reportBoth_keeps (fun t ht => ?_) (fun t ht => (missEntry_moves i t).keeps hmove ht) i (hentry _ _ _ hs)
    rcases reportSubstitution_cases i (s.entry i) t with h | ⟨l, -, -, -, h⟩ <;> rw [h]
    · exact ht
    · exact evaluateWatch_keeps hmove hraise (fun s i f => hentry s i _) i _ ht

theorem foldl_keeps {α : Type} {P : State → Prop} {act : State → α → State} (h : ∀ s a, P s → P (act s a)) (l : List α) {s : State}
    (hs : P s) : P (l.foldl act s) := by
  induction l generalizing s with
  | nil => exact hs
  | cons a l ih => exact ih (h s a hs)

theorem foldl_entryOff_oneCollects (is : List Nat) {s : State} (hs : s.oneCollects) : (is.foldl entryOff s).oneCollects :=
  foldl_keeps (fun _ i => entryOff_keeps (P := State.oneCollects) (fun _ _ h => h.oneCollects) (fun _ _ _ _ _ h => h)
    (fun _ _ _ h => h) i) is hs

/-- The passages into RESOLVING raise WATCH and SNAPSHOT events only (R112). -/
theorem foldl_entryOff_raises (is : List Nat) (s : State) :
    Raises (fun e => e.kind = .watch ∨ e.kind = .snapshot) s (is.foldl entryOff s) :=
  foldl_keeps (P := Raises _ s) (fun _ i => entryOff_keeps (P := Raises _ s)
    (fun _ _ h hs => hs.trans (h.raises.mono fun _ => .inr)) (fun _ _ _ _ _ h => h.trans (raise_raises (.inl rfl)))
    (fun _ _ _ h => h) i) is (.of_eq rfl)

/-! ### No collection is left in course -/

/-- A collection in course has a pending place (R157). -/
def State.unfinished (u : UnitId) (s : State) : Prop :=
  (s.unit u).state = .collecting → ∃ p ∈ (s.unit u).places, p.status = .pending

theorem noPending_iff (x : SnapshotUnit) : x.noPending = true ↔ ∀ p ∈ x.places, p.status ≠ .pending := by
  simp [SnapshotUnit.noPending]

theorem exists_pending {x : SnapshotUnit} (h : ¬x.noPending = true) : ∃ p ∈ x.places, p.status = .pending := by
  rw [noPending_iff] at h
  push Not at h
  exact h

theorem unfinished_of_rest {u : UnitId} {s : State} (h : (s.unit u).state ≠ .collecting) : s.unfinished u := fun hc => absurd hc h

theorem unfinished_of_unit {u : UnitId} {s t : State} (h : t.unit u = s.unit u) (hs : s.unfinished u) : t.unfinished u := by
  rwa [State.unfinished, h]

theorem closeCollection_unfinished (u : UnitId) (s : State) : (closeCollection u s).unfinished u :=
  unfinished_of_rest (by rcases closeCollection_ended u s with h | h <;> simp [h])

/-- An end looked for leaves the unit with a pending place or without a collection, and so too the unit that begins after it. -/
theorem judgeEnd_unfinished (u : UnitId) (s : State) :
    (judgeEnd u s).unfinished u ∧ (s.unfinished u.other → (judgeEnd u s).unfinished u.other) := by
  unfold judgeEnd
  split
  · have hclose := closeCollection_unfinished u s
    have hcloseOther := closeCollection_other u s
    simp only [endCollection]
    split
    · have hstart : (startCollection u.other (closeCollection u s)).unit u = (closeCollection u s).unit u := by
        simpa using startCollection_other u.other (closeCollection u s)
      split
      · refine ⟨unfinished_of_unit ?_ hclose, fun _ => closeCollection_unfinished _ _⟩
        have := closeCollection_other u.other (startCollection u.other (closeCollection u s))
        rw [UnitId.other_other] at this
        exact this.trans hstart
      · next hpending =>
        exact ⟨unfinished_of_unit hstart hclose, fun _ _ => exists_pending hpending⟩
    · exact ⟨hclose, unfinished_of_unit hcloseOther⟩
  · next h =>
    exact ⟨fun hc => exists_pending fun hn => h ⟨hc, hn⟩, id⟩

theorem actTrigger_other (u : UnitId) (s : State) : (actTrigger u s).unit u.other = s.unit u.other := by
  unfold actTrigger
  split
  case h_3 =>
    split
    · split
      · exact unit_modUnit_other ..
      · exact unit_modUnit_other ..
    · exact startCollection_other u s
  case h_1 | h_2 => rfl
  all_goals exact unit_modUnit_other ..

theorem answerCalls_unfinished (n : Nat) {s : State} (hs : s.unfinished .b) : (answerCalls n s).unfinished .b := by
  induction n generalizing s with
  | zero => exact hs
  | succ n ih => exact ih (judgeEnd_unfinished .b _).1

/-- Triggers leave no collection in course without a pending place (R153, R157). -/
theorem giveTriggers_unfinished (a b : Bool) {s : State} (hA : s.unfinished .a) (hB : s.unfinished .b) :
    (giveTriggers a b s).unfinished .a ∧ (giveTriggers a b s).unfinished .b := by
  have hBA : (triggerA s).unfinished .b :=
    answerCalls_unfinished _ (unfinished_of_unit (s := s) (actTrigger_other .a { s with began := s.began || s.beginsA }) hB)
  have hAB : ∀ t : State, t.unfinished .a → (triggerB t).unfinished .a := by
    intro t ht
    unfold triggerB
    split
    · exact ht
    · split
      · exact ht
      · split
        · exact ht
        · exact unfinished_of_unit (actTrigger_other .b t) ht
  have judgeA := judgeEnd_unfinished .a
  have judgeB := judgeEnd_unfinished .b
  cases a <;> cases b
  · exact ⟨hA, hB⟩
  · exact ⟨(judgeB (triggerB s)).2 (hAB s hA), (judgeB (triggerB s)).1⟩
  · exact ⟨(judgeA (triggerA s)).1, (judgeA (triggerA s)).2 hBA⟩
  · exact ⟨(judgeB _).2 (judgeA _).1, (judgeB _).1⟩

/-- Both units' collections in course have a pending place. -/
def State.bothUnfinished (s : State) : Prop := s.unfinished .a ∧ s.unfinished .b

theorem bothUnfinished_iff (u : UnitId) (s : State) : s.bothUnfinished ↔ s.unfinished u ∧ s.unfinished u.other := by
  cases u with
  | a => exact Iff.rfl
  | b => exact and_comm

theorem missEntry_unfinished (i : Nat) {s : State} (hs : s.bothUnfinished) : (missEntry i s).bothUnfinished := by
  unfold missEntry
  split
  · exact hs
  · next u _ =>
    rw [bothUnfinished_iff u] at hs ⊢
    have hjudge := judgeEnd_unfinished u (s.modUnit u fun x =>
      { x with places := x.places.map fun p => if p.entry = i then missPlace s.slot.round p else p })
    exact ⟨hjudge.1, hjudge.2 (unfinished_of_unit (unit_modUnit_other ..) hs.2)⟩

theorem evaluateWatch_unfinished (i : Nat) (f : Format) {s : State} (hs : s.bothUnfinished) :
    (evaluateWatch i f s).bothUnfinished := by
  rcases evaluateWatch_cases i f s with ⟨h, -⟩ | h | ⟨a, b, c, d, v, h⟩ <;> rw [h]
  · exact hs
  · exact hs
  · exact giveTriggers_unfinished a b (s := raise .watch c i d v (s.modEntry i (·.placed f))) hs.1 hs.2

theorem entryOff_unfinished (i : Nat) {s : State} (hs : s.bothUnfinished) : (entryOff s i).bothUnfinished := by
  rcases entryOff_cases s i with h | h <;> rw [h]
  · exact hs
  · refine reportBoth_keeps (P := State.bothUnfinished) (fun t ht => ?_) (fun t ht => missEntry_unfinished i ht) i
      (s := s.modEntry i (·.pass .resolving)) hs
    rcases reportSubstitution_cases i (s.entry i) t with h | ⟨l, -, -, -, h⟩ <;> rw [h]
    · exact ht
    · exact evaluateWatch_unfinished i _ ht

/-! ### The places that wait are of entries not passed yet -/

theorem awaits_of_entries {passing : Option Nat} {s t : State} (ha : t.unitA = s.unitA) (hb : t.unitB = s.unitB)
    (he : ∀ i, (t.entry i).state = (s.entry i).state) (hs : s.awaits passing) : t.awaits passing := by
  intro u hu p hp hpending
  have hunit : t.unit u = s.unit u := by cases u <;> assumption
  rw [hunit] at hu hp
  rw [he]
  exact hs u hu p hp hpending

theorem awaits_placed {passing : Option Nat} (s : State) (i : Nat) (f : Format) (hs : s.awaits passing) :
    (s.modEntry i (·.placed f)).awaits passing :=
  awaits_of_entries (s := s) rfl rfl (fun j => by rw [entry_modEntry]; split <;> rfl) hs

theorem reportSubstitution_awaits {passing : Option Nat} (i : Nat) (e : ImageEntry) {s : State} (hs : s.awaits passing) :
    (reportSubstitution i e s).awaits passing := by
  rcases reportSubstitution_cases i e s with h | ⟨l, -, -, -, h⟩ <;> rw [h]
  · exact hs
  · exact evaluateWatch_keeps (fun _ _ h => h.awaits)
      (fun s _ _ _ _ h => awaits_of_entries (s := s) rfl rfl (fun _ => rfl) h) awaits_placed i _ hs

theorem not_collecting {s : State} (h : s.collecting? = none) (u : UnitId) : (s.unit u).state ≠ .collecting := by
  simp only [State.collecting?] at h
  split at h
  · cases h
  · next ha =>
    split at h
    · cases h
    · next hb =>
      cases u with
      | a => exact ha
      | b => exact hb

/-- The report of an entry's passage decides the places that wait for it (R155). -/
theorem missEntry_awaits {i : Nat} {s : State} (hone : s.oneCollects) (hs : s.awaits (some i)) : (missEntry i s).awaits none := by
  unfold missEntry
  split
  · next hnone => exact fun u hu => absurd hu (not_collecting hnone u)
  · next u hu =>
    refine (judgeEnd_moves u _).awaits fun v hv p hp hpending => ?_
    by_cases heq : v = u
    · subst heq
      rw [unit_modUnit_same] at hv hp
      obtain ⟨q, hq, rfl⟩ := List.mem_map.mp hp
      by_cases hi : q.entry = i
      · simp only [hi, if_true] at hpending
        rw [missPlace] at hpending
        split at hpending
        · cases hpending
        · next hq => exact absurd hpending hq
      · rw [if_neg hi] at hpending ⊢
        have hentry : ∀ f j, (s.modUnit v f).entry j = s.entry j := by cases v <;> exact fun _ _ => rfl
        rw [hentry]
        exact (hs v hv q hq hpending).imp_right fun h => absurd (Option.some.inj h).symm hi
    · rw [unit_modUnit_ne heq] at hv
      rw [UnitId.eq_other heq] at hv
      exact absurd ⟨collecting?_state hu, hv⟩ ((oneCollects_iff u s).mp hone)

theorem entryOff_awaits (i : Nat) {s : State} (hone : s.oneCollects) (hs : s.awaits none) : (entryOff s i).awaits none := by
  rcases entryOff_cases s i with h | h <;> rw [h]
  · exact hs
  · have hpass : (s.modEntry i (·.pass .resolving)).awaits (some i) := by
      intro u hu p hp hpending
      rw [entry_modEntry]
      split
      · next hi => exact .inr (by rw [hi.1])
      · exact (hs u hu p hp hpending).imp_right fun h => nomatch h
    unfold reportBoth
    split
    · refine missEntry_awaits ?_ (reportSubstitution_awaits i _ hpass)
      rcases reportSubstitution_cases i (s.entry i) (s.modEntry i (·.pass .resolving)) with h | ⟨l, -, -, -, h⟩ <;> rw [h]
      · exact hone
      · exact evaluateWatch_keeps (P := State.oneCollects) (fun _ _ h => h.oneCollects) (fun _ _ _ _ _ h => h)
          (fun _ _ _ h => h) i _ hone
    · exact reportSubstitution_awaits i _ (missEntry_awaits hone hpass)

/-- The collection in course of a unit ends ABORTED (R162). -/
def abortCollection (u : UnitId) (s : State) : State :=
  raiseSnapshot u <| s.modUnit u fun x =>
    { x with state := .armed, summary := .aborted, places := x.places.map (missPlace s.slot.round), deadlineDue := false }

/-- A PENDING unit becomes ARMED (R162). -/
def SnapshotUnit.disarm (x : SnapshotUnit) : SnapshotUnit := if x.state = .pending then { x with state := .armed } else x

/-- The collector on entering OFF, by whether a collection is in course. -/
theorem collectorOff_of_collecting {s : State} {u : UnitId} (h : (takeCall s).collecting? = some u) :
    collectorOff s = ((abortCollection u (takeCall s)).modUnit .a (·.disarm)).modUnit .b (·.disarm) := by
  simp only [collectorOff, h]
  rfl

theorem collectorOff_of_none {s : State} (h : (takeCall s).collecting? = none) :
    collectorOff s = ((takeCall s).modUnit .a (·.disarm)).modUnit .b (·.disarm) := by
  simp only [collectorOff, h]
  rfl

theorem disarm_rests {x : SnapshotUnit} (h : x.state ≠ .collecting) : x.disarm.state ≠ .collecting ∧ x.disarm.state ≠ .pending := by
  unfold SnapshotUnit.disarm
  split
  · simp
  · next hp => exact ⟨h, hp⟩

theorem unit_disarm (u : UnitId) (s : State) : ((s.modUnit .a (·.disarm)).modUnit .b (·.disarm)).unit u = (s.unit u).disarm := by
  cases u <;> rfl

theorem abortCollection_same (u : UnitId) (s : State) : ((abortCollection u s).unit u).state = .armed := by
  simp [abortCollection, raiseSnapshot]

theorem abortCollection_other (u : UnitId) (s : State) : (abortCollection u s).unit u.other = s.unit u.other := by
  simp [abortCollection, raiseSnapshot]

/-- The collector's own reaction leaves neither unit COLLECTING or PENDING (R162). -/
theorem collectorOff_rests {s : State} (hone : s.oneCollects) (v : UnitId) :
    ((collectorOff s).unit v).state ≠ .collecting ∧ ((collectorOff s).unit v).state ≠ .pending := by
  have hone := (takeCall_moves s).oneCollects hone
  cases hc : (takeCall s).collecting? with
  | none =>
    rw [collectorOff_of_none hc, unit_disarm]
    exact disarm_rests (not_collecting hc v)
  | some u =>
    rw [collectorOff_of_collecting hc, unit_disarm]
    refine disarm_rests ?_
    by_cases heq : v = u
    · simp [heq, abortCollection_same]
    · rw [UnitId.eq_other heq, abortCollection_other]
      exact fun ho => (oneCollects_iff u _).mp hone ⟨collecting?_state hc, ho⟩

theorem collectorOff_raises (s : State) : Raises (·.kind = .snapshot) s (collectorOff s) := by
  refine (takeCall_moves s).raises.trans ?_
  cases hc : (takeCall s).collecting? with
  | none =>
    rw [collectorOff_of_none hc]
    exact .of_eq rfl
  | some u =>
    rw [collectorOff_of_collecting hc]
    have hunit : ((takeCall s).modUnit u fun x =>
        { x with
          state := .armed
          summary := .aborted
          places := x.places.map (missPlace (takeCall s).slot.round)
          deadlineDue := false }).raised = (takeCall s).raised := by
      cases u <;> rfl
    exact Raises.trans (.of_eq hunit) (raise_raises rfl)

theorem offed_unserved (e : ImageEntry) : e.offed.state.served = false := by
  unfold ImageEntry.offed
  split
  · next h => rcases h with h | h <;> rw [h] <;> rfl
  · rfl

/-- Entering OFF leaves neither unit COLLECTING or PENDING: a collection that a substitution's WATCH begins waits for entries that pass
after it, and ends with the last of them (R125, R162). -/
theorem imageOff_rests {s : State} (hone : s.oneCollects) (u : UnitId) :
    ((imageOff s).unit u).state ≠ .collecting ∧ ((imageOff s).unit u).state ≠ .pending := by
  have hrest := collectorOff_rests (foldl_entryOff_oneCollects ((List.range s.image.length).take s.order.offAfter) hone)
  have hpassed : ∀ j, ((imageOff s).entry j).state.served = false := by
    intro j
    rw [State.entry, imageOff_image, List.getD_eq_getElem?_getD, List.getElem?_map]
    cases s.image[j]? with
    | none => rfl
    | some e => exact offed_unserved e
  revert hpassed
  simp only [imageOff]
  generalize collectorOff _ = t at hrest ⊢
  generalize (List.range s.image.length).drop s.order.offAfter = is
  intro hpassed
  have hlaw : (is.foldl entryOff t).CollectorLaw :=
    (foldl_kept (fun s i => ite_kept' (passEntry_kept ..)) is t).collector
      ⟨fun h => (hrest .a).1 h.1, fun h => absurd h (hrest .a).2, fun h => absurd h (hrest .b).2⟩
  have hunfinished : (is.foldl entryOff t).bothUnfinished :=
    foldl_keeps (fun _ i => entryOff_unfinished i) is ⟨unfinished_of_rest (hrest .a).1, unfinished_of_rest (hrest .b).1⟩
  have hawaits : (is.foldl entryOff t).oneCollects ∧ (is.foldl entryOff t).awaits none :=
    foldl_keeps (P := fun s => s.oneCollects ∧ s.awaits none)
      (fun s i h => ⟨foldl_entryOff_oneCollects [i] h.1, entryOff_awaits i h.1 h.2⟩) is
      ⟨fun h => (hrest .a).1 h.1, fun v hv => absurd hv (hrest v).1⟩
  have hnone : ∀ v, ((is.foldl entryOff t).unit v).state ≠ .collecting := by
    intro v hv
    obtain ⟨p, hp, hpending⟩ := ((bothUnfinished_iff v _).mp hunfinished).1 hv
    rcases hawaits.2 v hv p hp hpending with h | h
    · exact absurd (hpassed p.entry) (by simp [h])
    · cases h
  exact ⟨hnone u, fun hp => hnone u.other (((collectorLaw_iff u _).mp hlaw).2.1 hp)⟩

end Sys2Proof.Machine

namespace Sys2Proof.Machine

/-! ## Records of the request list, named by their numbers (log 21) -/

/-- The record of a number, in a list that holds the number once. -/
theorem record?_of_split {s : State} {before after : List RequestRecord} {r : RequestRecord} (h : s.req.list = before ++ r :: after)
    (hb : ∀ q ∈ before, q.id ≠ r.id) : s.record? r.id = some r := by
  have hnone : before.find? (·.id == r.id) = none := by
    rw [List.find?_eq_none]
    exact fun q hq => by simpa using hb q hq
  simp [State.record?, h, List.find?_append, hnone]

theorem modRecord_of_split {s : State} {before after : List RequestRecord} {r : RequestRecord} (h : s.req.list = before ++ r :: after)
    (hne : ∀ q ∈ before ++ after, q.id ≠ r.id) (f : RequestRecord → RequestRecord) :
    s.modRecord r.id f = { s with req := { s.req with list := before ++ f r :: after } } := by
  have keep : ∀ l : List RequestRecord, (∀ q ∈ l, q.id ≠ r.id) → l.map (fun q => if q.id = r.id then f q else q) = l := by
    intro l hl
    conv_rhs => rw [← List.map_id l]
    exact List.map_congr_left fun q hq => if_neg (hl q hq)
  have hb := keep before fun q hq => hne q (List.mem_append_left _ hq)
  have ha := keep after fun q hq => hne q (List.mem_append_right _ hq)
  simp [State.modRecord, State.modList, State.modReq, h, hb, ha]

/-- A record with its end (R127, R133). -/
def RequestRecord.closed (o : RequestOutcome) (c : Content) (r : RequestRecord) : RequestRecord :=
  { r with state := o.endState, outcome := some o, content := c }

/-- An application record that ends, with its REQUEST event (R142). -/
theorem closeRecord_of_split {s : State} {before after : List RequestRecord} {r : RequestRecord} (h : s.req.list = before ++ r :: after)
    (hne : ∀ q ∈ before ++ after, q.id ≠ r.id) (happ : r.origin = .application) (o : RequestOutcome) (c : Content) :
    closeRecord r.id o c s
      = { s with
          req := { s.req with list := before ++ r.closed o c :: after }
          raised := s.raised ++ [⟨.request, o.code, r.tag, r.target, c.eventValue, s.slot.round⟩] } := by
  have hrec := record?_of_split h fun q hq => hne q (List.mem_append_left _ hq)
  simp only [closeRecord, hrec, happ, if_true]
  rw [modRecord_of_split h hne]
  rfl

/-! ## Entering OFF: the request list (R147) -/

/-- One record on entering OFF, by its number. -/
def recordOff (s : State) (id : Nat) : State :=
  match s.record? id with
  | none => s
  | some r => if r.state.live then closeRecord id .aborted .nothing s else s

theorem requestsOff_eq_foldl (s : State) :
    requestsOff s
      = ((s.modList (·.filter fun r => r.origin != .discovery)).recordIds).foldl recordOff
        (s.modList (·.filter fun r => r.origin != .discovery)) := rfl

/-- An application record after the station has entered OFF. -/
def RequestRecord.offed (r : RequestRecord) : RequestRecord := if r.state.live then r.closed .aborted .nothing else r

/-- The REQUEST event of a record that ends ABORTED. -/
def RequestRecord.abortion (round : Half) (r : RequestRecord) : EventRecord := ⟨.request, 8, r.tag, r.target, 0, round⟩

/-- The application records from one on end ABORTED in list order, each with its event. -/
theorem foldl_recordOff (rest before : List RequestRecord) (s : State) (hlist : s.req.list = before ++ rest)
    (hids : ((before ++ rest).map (·.id)).Nodup) (happ : ∀ r ∈ rest, r.origin = .application) :
    (rest.map (·.id)).foldl recordOff s
      = { s with
          req := { s.req with list := before ++ rest.map (·.offed) }
          raised := s.raised ++ (rest.filter (·.state.live)).map (·.abortion s.slot.round) } := by
  induction rest generalizing before s with
  | nil =>
    simp only [List.map_nil, List.foldl_nil, List.filter_nil, List.append_nil] at hlist ⊢
    rw [← hlist]
  | cons r rest ih =>
    have hne : ∀ q ∈ before ++ rest, q.id ≠ r.id := by
      simp only [List.map_append, List.map_cons, List.nodup_append, List.nodup_cons] at hids
      obtain ⟨-, ⟨hr, -⟩, hdisj⟩ := hids
      intro q hq
      rcases List.mem_append.mp hq with hq | hq
      · exact hdisj _ (List.mem_map_of_mem hq) _ (by simp)
      · exact fun h => hr (h ▸ List.mem_map_of_mem hq)
    have hrec := record?_of_split hlist fun q hq => hne q (List.mem_append_left _ hq)
    have hids' : ((before ++ [r.offed] ++ rest).map (·.id)).Nodup := by
      have : r.offed.id = r.id := by unfold RequestRecord.offed; split <;> rfl
      simpa [this] using hids
    have happ' : ∀ q ∈ rest, q.origin = .application := fun q hq => happ q (by simp [hq])
    by_cases hlive : r.state.live = true
    · have hstep : recordOff s r.id
          = { s with
              req := { s.req with list := before ++ [r.offed] ++ rest }
              raised := s.raised ++ [r.abortion s.slot.round] } := by
        simp only [recordOff, hrec, hlive, if_true]
        rw [closeRecord_of_split hlist hne (happ r (by simp))]
        simp [RequestRecord.offed, hlive, RequestRecord.abortion, RequestOutcome.code, Content.eventValue]
      rw [List.map_cons, List.foldl_cons, hstep, ih _ _ rfl hids' happ']
      simp [hlive]
    · have hstep : recordOff s r.id = s := by simp only [recordOff, hrec, hlive, if_false, Bool.false_eq_true]
      have hoff : r.offed = r := by simp [RequestRecord.offed, hlive]
      rw [hoff] at hids'
      rw [List.map_cons, List.foldl_cons, hstep, ih (before ++ [r]) s (by simpa using hlist) hids' happ']
      simp [hlive, hoff]

/-- Entering OFF removes the discovery records and ends every live application record ABORTED, in list order (R147). -/
theorem requestsOff_of_nodup {s : State} (hids : (s.req.list.map (·.id)).Nodup) :
    requestsOff s
      = { s with
          req := { s.req with list := (s.req.list.filter fun r => r.origin == .application).map (·.offed) }
          raised := s.raised
            ++ ((s.req.list.filter fun r => r.origin == .application).filter (·.state.live)).map (·.abortion s.slot.round) } := by
  have hfilter : (s.req.list.filter fun r => r.origin != .discovery) = s.req.list.filter fun r => r.origin == .application :=
    List.filter_congr fun r _ => by cases r.origin <;> rfl
  have hsub : ((s.req.list.filter fun r => r.origin == .application).map (·.id)).Nodup :=
    hids.sublist (List.Sublist.map _ List.filter_sublist)
  rw [requestsOff_eq_foldl]
  simp only [State.recordIds, modList_req, hfilter]
  rw [foldl_recordOff _ [] _ hfilter hsub fun r hr => by simpa using (List.mem_filter.mp hr).2]
  rfl

theorem closeRecord_raises (id : Nat) (o : RequestOutcome) (c : Content) (s : State) :
    Raises (·.kind = .request) s (closeRecord id o c s) := by
  unfold closeRecord
  split
  · exact .of_eq rfl
  · dsimp only
    split
    · exact Raises.trans (.of_eq rfl) (raise_raises rfl)
    · exact .of_eq rfl

theorem requestsOff_raises (s : State) : Raises (·.kind = .request) s (requestsOff s) := by
  rw [requestsOff_eq_foldl]
  refine foldl_keeps (P := Raises _ s) (fun t id ht => ht.trans ?_) _ (.of_eq rfl)
  unfold recordOff
  split
  · exact .of_eq rfl
  · split
    · exact closeRecord_raises ..
    · exact .of_eq rfl

end Sys2Proof.Machine

namespace Sys2Proof.Machine

/-! ## Entering OFF where no substitution is watched (R155, R162) -/

/-- No entry that would present a fallback on leaving FRESH has a watch. -/
def State.unsubstituted (s : State) : Prop := ∀ e ∈ s.image, e.state = .fresh → e.fallback = none ∨ e.watch = none

theorem evaluateWatch_of_unwatched {i : Nat} {s : State} (h : (s.entry i).watch = none) (f : Format) : evaluateWatch i f s = s := by
  simp only [evaluateWatch, h]

/-- A substitution that is not watched reports nothing. -/
theorem reportSubstitution_of_unwatched {i : Nat} {e : ImageEntry} {t : State}
    (ht : (t.entry i).watch = none ∨ ¬(e.state = .fresh ∧ e.fallback ≠ none)) : reportSubstitution i e t = t := by
  rcases reportSubstitution_cases i e t with h | ⟨l, -, hfresh, hf, h⟩
  · exact h
  · rw [h]
    exact evaluateWatch_of_unwatched (ht.resolve_right fun hn => hn ⟨hfresh, hf⟩) l.format

/-- Where no substitution is watched, an entry passes and the collector is told, and no more. -/
theorem entryOff_of_unsubstituted {s : State} (hs : s.unsubstituted) (i : Nat) :
    entryOff s i = s ∨ entryOff s i = missEntry i (s.modEntry i (·.pass .resolving)) := by
  rcases entryOff_cases s i with h | h
  · exact .inl h
  · right
    have hquiet : ∀ t : State, t.image = (s.modEntry i (·.pass .resolving)).image →
        reportSubstitution i (s.entry i) t = t := by
      intro t ht
      refine reportSubstitution_of_unwatched ?_
      by_cases hsub : (s.entry i).state = .fresh ∧ (s.entry i).fallback ≠ none
      · left
        have hi : i < s.image.length := lt_of_entry (by rw [hsub.1]; simp)
        have hmem : s.entry i ∈ s.image := by
          rw [State.entry, List.getD_eq_getElem _ _ hi]
          exact List.getElem_mem hi
        have hwatch := (hs _ hmem hsub.1).resolve_left hsub.2
        have hentry : t.entry i = (s.modEntry i (·.pass .resolving)).entry i := by rw [State.entry, ht, State.entry]
        rw [hentry, entry_modEntry, if_pos ⟨rfl, hi⟩]
        simp [ImageEntry.pass, hwatch]
      · exact .inr hsub
    rw [h, reportBoth, hquiet _ rfl, hquiet _ (missEntry_image ..), ite_self]

theorem offed_unsubstituted {e : ImageEntry} (h : e.state = .fresh → e.fallback = none ∨ e.watch = none) :
    e.offed.state = .fresh → e.offed.fallback = none ∨ e.offed.watch = none := by
  unfold ImageEntry.offed
  split
  · exact h
  · exact fun hf => nomatch hf

theorem unsubstituted_of_modify {s t : State} {i : Nat} {f : ImageEntry → ImageEntry} (ht : t.image = s.image.modify i f)
    (hf : ∀ e, (e.state = .fresh → e.fallback = none ∨ e.watch = none) → (f e).state = .fresh → (f e).fallback = none ∨ (f e).watch = none)
    (hs : s.unsubstituted) : t.unsubstituted := by
  intro e he
  rw [ht, List.mem_iff_getElem?] at he
  obtain ⟨j, hj⟩ := he
  rw [List.getElem?_modify] at hj
  split at hj
  · obtain ⟨e', he', rfl⟩ := Option.map_eq_some_iff.mp hj
    exact hf e' (hs e' (List.mem_of_getElem? he'))
  · exact hs e (List.mem_of_getElem? (by simpa using hj))

theorem entryOff_unsubstituted {s : State} (hs : s.unsubstituted) (i : Nat) : (entryOff s i).unsubstituted :=
  unsubstituted_of_modify (entryOff_image s i) (fun _ => offed_unsubstituted) hs

/-! ### With no collection in course -/

theorem missEntry_of_free {s : State} (h : s.collectorFree) (i : Nat) : missEntry i s = s := by
  have hnone : s.collecting? = none := by simp [State.collecting?, h.1, h.2]
  simp only [missEntry, hnone]

/-- With no collection in course the entries pass, and nothing else comes about. -/
theorem foldl_entryOff_of_free (is : List Nat) {s : State} (hs : s.unsubstituted) (hfree : s.collectorFree) :
    is.foldl entryOff s = { s with image := is.foldl (fun l i => l.modify i ImageEntry.offed) s.image } := by
  induction is generalizing s with
  | nil => rfl
  | cons i is ih =>
    have hstep : entryOff s i = { s with image := s.image.modify i ImageEntry.offed } := by
      have himage := entryOff_image s i
      rcases entryOff_of_unsubstituted hs i with h | h
      · rw [h] at himage ⊢
        rw [← himage]
      · rw [missEntry_of_free (s := s.modEntry i (·.pass .resolving)) hfree] at h
        rw [h] at himage ⊢
        rw [← himage]
        rfl
    have hunsub := entryOff_unsubstituted hs i
    rw [List.foldl_cons, hstep]
    rw [hstep] at hunsub
    rw [ih hunsub hfree]
    rfl

theorem takeCall_of_noCall {s : State} (h : s.called = 0) : takeCall s = { s with called := 0, began := false } := by
  simp only [takeCall, answerCall, h]
  rfl

/-- The collector's own reaction with no collection in course (R162). -/
theorem collectorOff_of_free {s : State} (hcalled : s.called = 0) (hfree : s.collectorFree) :
    collectorOff s
      = { s with called := 0, began := false, unitA := s.unitA.disarm, unitB := s.unitB.disarm } := by
  have htake := takeCall_of_noCall hcalled
  have hnone : (takeCall s).collecting? = none := by simp [htake, State.collecting?, hfree.1, hfree.2]
  rw [collectorOff_of_none hnone, htake]
  rfl

theorem disarm_free {x : SnapshotUnit} (h : x.state ≠ .collecting) : x.disarm.state ≠ .collecting := (disarm_rests h).1

/-- The image unit and the collector on entering OFF, with no collection in course and no watched substitution. -/
theorem imageOff_of_free {s : State} (hs : s.unsubstituted) (hcalled : s.called = 0) (hfree : s.collectorFree) :
    imageOff s
      = { s with
          image := s.image.map ImageEntry.offed, called := 0, began := false
          unitA := s.unitA.disarm, unitB := s.unitB.disarm } := by
  have himage := imageOff_image s
  have hsub : ∀ is : List Nat, (is.foldl entryOff s).unsubstituted := fun is =>
    foldl_keeps (P := State.unsubstituted) (fun _ i h => entryOff_unsubstituted h i) is hs
  simp only [imageOff] at himage ⊢
  have hsub := hsub ((List.range s.image.length).take s.order.offAfter)
  rw [foldl_entryOff_of_free _ hs hfree] at himage hsub ⊢
  set passed : State := { s with image := _ }
  have hoff := collectorOff_of_free (s := passed) hcalled hfree
  have hrest : (collectorOff passed).unsubstituted ∧ (collectorOff passed).collectorFree := by
    rw [hoff]
    exact ⟨hsub, disarm_free hfree.1, disarm_free hfree.2⟩
  rw [foldl_entryOff_of_free _ hrest.1 hrest.2, hoff] at himage ⊢
  exact congrArg (fun l => ({ s with
    image := l, called := 0, began := false, unitA := s.unitA.disarm, unitB := s.unitB.disarm } : State)) himage

/-! ### With a collection in course -/

theorem missEntry_called (i : Nat) (s : State) : (missEntry i s).called = s.called := by
  unfold missEntry
  split
  · rfl
  · next u _ =>
    rw [judgeEnd_called]
    cases u <;> rfl

/-- A collection whose places of some entries have become MISSING. -/
def SnapshotUnit.missed (d : Nat → Bool) (round : Half) (x : SnapshotUnit) : SnapshotUnit :=
  { x with places := x.places.map fun p => if d p.entry then missPlace round p else p }

/-- A collection all of whose pending places have become MISSING, in a unit and with a summary. -/
def SnapshotUnit.over (st : UnitState) (summary : Summary) (round : Half) (x : SnapshotUnit) : SnapshotUnit :=
  { x with state := st, summary := summary, deadlineDue := false, places := x.places.map (missPlace round) }

/-- The state of a unit whose collection has ended (R157). -/
def SnapshotUnit.after (x : SnapshotUnit) : UnitState := if x.oneShot then .spent else .armed

theorem after_ne (x : SnapshotUnit) : x.after ≠ .collecting ∧ x.after ≠ .pending := by
  unfold SnapshotUnit.after
  split <;> simp

/-- The SNAPSHOT event of a collection whose pending places are MISSING. -/
def SnapshotUnit.ending (u : UnitId) (code : Nat) (round : Half) (x : SnapshotUnit) : EventRecord :=
  ⟨.snapshot, code, u.code, x.captured, BitVec.ofNat 32 (x.places.length - x.captured), round⟩

theorem missPlace_status (round : Half) (p : Place) :
    (missPlace round p).status = if p.status = .captured then .captured else .missing := by
  unfold missPlace
  cases h : p.status <;> simp [h]

theorem captured_missPlaces (round : Half) (l : List Place) :
    (l.map (missPlace round)).countP (·.status == .captured) = l.countP (·.status == .captured) := by
  rw [List.countP_map]
  refine List.countP_congr fun p _ => ?_
  simp only [Function.comp_apply, missPlace_status]
  split <;> simp_all

theorem missing_missPlaces (round : Half) (l : List Place) :
    (l.map (missPlace round)).countP (·.status == .missing) = l.length - l.countP (·.status == .captured) := by
  have h : (l.map (missPlace round)).countP (·.status == .missing) = l.countP fun p => ¬(p.status == .captured) := by
    rw [List.countP_map]
    refine List.countP_congr fun p _ => ?_
    simp only [Function.comp_apply, missPlace_status]
    split <;> simp_all
  have := List.length_eq_countP_add_countP (p := fun p : Place => p.status == .captured) (l := l)
  omega

theorem missPlace_missPlace (round : Half) (p : Place) : missPlace round (missPlace round p) = missPlace round p := by
  have h : (missPlace round p).status ≠ .pending := by
    rw [missPlace_status]
    split <;> simp
  exact if_neg h

theorem missPlaces_missed (d : Nat → Bool) (round : Half) (x : SnapshotUnit) :
    (x.missed d round).places.map (missPlace round) = x.places.map (missPlace round) := by
  simp only [SnapshotUnit.missed, List.map_map]
  refine List.map_congr_left fun p _ => ?_
  simp only [Function.comp_apply]
  split
  · exact missPlace_missPlace round p
  · rfl

/-- Where the entries that have passed are those of all pending places, every pending place is MISSING. -/
theorem places_missed {d : Nat → Bool} {round : Half} {x : SnapshotUnit} (h : ∀ p ∈ x.places, p.status = .pending → d p.entry = true) :
    (x.missed d round).places = x.places.map (missPlace round) := by
  refine List.map_congr_left fun p hp => ?_
  split
  · rfl
  · next hd =>
    have : p.status ≠ .pending := fun hpending => hd (h p hp hpending)
    simp [missPlace, this]

theorem noPending_missed {d : Nat → Bool} {round : Half} {x : SnapshotUnit} :
    (x.missed d round).noPending = true ↔ ∀ p ∈ x.places, p.status = .pending → d p.entry = true := by
  rw [noPending_iff]
  simp only [SnapshotUnit.missed, List.forall_mem_map]
  refine forall₂_congr fun p _ => ?_
  by_cases hd : d p.entry = true
  · simp only [hd, if_true, missPlace_status, implies_true, iff_true]
    split <;> simp
  · simp [hd]

end Sys2Proof.Machine

namespace Sys2Proof.Machine

/-! ## The collection in course while entries pass into RESOLVING (R155, R162) -/

theorem collecting?_of {s : State} {u : UnitId} (hu : (s.unit u).state = .collecting) (ho : (s.unit u.other).state ≠ .collecting) :
    s.collecting? = some u := by
  cases u with
  | a => exact if_pos hu
  | b => exact (if_neg ho).trans (if_pos hu)

theorem missEntry_of_collecting {s : State} {u : UnitId} (h : s.collecting? = some u) (i : Nat) :
    missEntry i s = judgeEnd u (s.modUnit u (·.missed (· == i) s.slot.round)) := by
  simp only [missEntry, h, SnapshotUnit.missed, beq_iff_eq]

theorem missed_missed (d : Nat → Bool) (i : Nat) (round : Half) (x : SnapshotUnit) :
    (x.missed d round).missed (· == i) round = x.missed (fun e => d e || e == i) round := by
  simp only [SnapshotUnit.missed, List.map_map]
  congr 1
  refine List.map_congr_left fun p _ => ?_
  have hentry : (missPlace round p).entry = p.entry := by unfold missPlace; split <;> rfl
  by_cases hd : d p.entry = true <;> by_cases hi : p.entry = i <;> simp_all [missPlace_missPlace]

theorem captured_lt_length {x : SnapshotUnit} (h : ∃ p ∈ x.places, p.status = .pending) : x.captured < x.places.length := by
  obtain ⟨p, hp, hpending⟩ := h
  refine lt_of_le_of_ne List.countP_le_length fun heq => ?_
  have := List.countP_eq_length.mp heq p hp
  rw [hpending] at this
  cases this

/-- A unit all of whose pending places are MISSING raises the event of its end. -/
theorem raiseSnapshot_of_over {u : UnitId} {s : State} {x : SnapshotUnit} {st : UnitState} {summary : Summary}
    (h : s.unit u = x.over st summary s.slot.round) :
    (raiseSnapshot u s).raised = s.raised ++ [x.ending u summary.code s.slot.round] := by
  have hcaptured : (x.over st summary s.slot.round).captured = x.captured := captured_missPlaces ..
  have hmissing : (x.over st summary s.slot.round).missing = x.places.length - x.captured := missing_missPlaces ..
  rw [raiseSnapshot, raise_raised, h, hcaptured, hmissing]
  rfl

/-- A collection whose last pending place becomes MISSING ends PARTIAL (R157). -/
theorem closeCollection_of_missed {s : State} {u : UnitId} {x : SnapshotUnit} {d : Nat → Bool}
    (hu : s.unit u = x.missed d s.slot.round) (hd : ∀ p ∈ x.places, p.status = .pending → d p.entry = true)
    (hx : ∃ p ∈ x.places, p.status = .pending) :
    (closeCollection u s).unit u = x.over x.after .incomplete s.slot.round
      ∧ (closeCollection u s).raised = s.raised ++ [x.ending u 2 s.slot.round] := by
  have hplaces := places_missed (round := s.slot.round) hd
  have hlt := captured_lt_length hx
  have hmissing : (x.missed d s.slot.round).missing = x.places.length - x.captured := by
    rw [SnapshotUnit.missing, hplaces]
    exact missing_missPlaces ..
  have hunit : (s.modUnit u fun x =>
      { x with
        state := if x.oneShot then .spent else .armed
        summary := if x.missing = 0 then .complete else .incomplete
        deadlineDue := false }).unit u = x.over x.after .incomplete s.slot.round := by
    have hsome : ¬x.places.length - x.captured = 0 := by omega
    rw [unit_modUnit_same, hu, hmissing]
    simp only [hsome, if_false, SnapshotUnit.over, SnapshotUnit.after, ← hplaces, SnapshotUnit.missed]
    rfl
  refine ⟨?_, ?_⟩
  · rw [closeCollection, raiseSnapshot, unit_raise]
    exact hunit
  · have hround : ∀ f, (s.modUnit u f).slot.round = s.slot.round := fun f => by cases u <;> rfl
    rw [closeCollection, raiseSnapshot_of_over (x := x) (st := x.after) (summary := .incomplete) (by rw [hround]; exact hunit), hround]
    cases u <;> rfl

theorem judgeEnd_of_waiting {s : State} {u : UnitId} {x : SnapshotUnit} {d : Nat → Bool} {round : Half}
    (hu : s.unit u = x.missed d round) (hd : ∃ p ∈ x.places, p.status = .pending ∧ d p.entry = false) : judgeEnd u s = s := by
  obtain ⟨p, hp, hpending, hdp⟩ := hd
  have : (s.unit u).noPending ≠ true := by
    rw [hu]
    exact fun h => by simpa [hdp] using noPending_missed.mp h p hp hpending
  simp [judgeEnd, this]

theorem judgeEnd_of_missed {s : State} {u : UnitId} {x : SnapshotUnit} {d : Nat → Bool} {round : Half}
    (hu : s.unit u = x.missed d round) (hx : x.state = .collecting) (ho : (s.unit u.other).state ≠ .pending)
    (hd : ∀ p ∈ x.places, p.status = .pending → d p.entry = true) : judgeEnd u s = closeCollection u s := by
  have hno : (s.unit u).noPending = true := hu ▸ noPending_missed.mpr hd
  have hcollecting : (s.unit u).state = .collecting := hu ▸ hx
  simp [judgeEnd, hno, hcollecting, endCollection, ho]

/-- From `s` to `t` entries have passed, and the collection of `u` is in course still, some of its places MISSING, or has ended PARTIAL. -/
structure Course (u : UnitId) (s t : State) : Prop where
  slot : t.slot = s.slot
  called : t.called = s.called
  raised : Raises (·.kind = .snapshot) s t
  other : t.unit u.other = s.unit u.other
  unsubstituted : t.unsubstituted
  course : (∃ d, t.unit u = (s.unit u).missed d s.slot.round ∧ ∃ p ∈ (s.unit u).places, p.status = .pending ∧ d p.entry = false)
    ∨ t.unit u = (s.unit u).over (s.unit u).after .incomplete s.slot.round
      ∧ ∃ es, t.raised = s.raised ++ es ∧ (s.unit u).ending u 2 s.slot.round ∈ es

theorem closeCollection_slot (u : UnitId) (s : State) : (closeCollection u s).slot = s.slot := by cases u <;> rfl

/-- A unit that collects alone, with a place pending. -/
structure State.collectsAlone (u : UnitId) (s : State) : Prop where
  collecting : (s.unit u).state = .collecting
  places : ∃ p ∈ (s.unit u).places, p.status = .pending
  free : (s.unit u.other).state ≠ .collecting
  noPending : (s.unit u.other).state ≠ .pending

/-- One more entry passes. -/
theorem missEntry_course {u : UnitId} {s t : State} (hs : s.collectsAlone u) (h : Course u s t) (i : Nat) : Course u s (missEntry i t) := by
  have hfree : (t.unit u.other).state ≠ .collecting := h.other ▸ hs.free
  have hunsubstituted : (missEntry i t).unsubstituted := by
    intro e he
    rw [missEntry_image] at he
    exact h.unsubstituted e he
  have hslot : (missEntry i t).slot = s.slot := (congrArg State.slot (missEntry_outsideUnits i t) :).trans h.slot
  rcases h.course with ⟨d, hd, -⟩ | hover
  · have hcollecting : (t.unit u).state = .collecting := by rw [hd]; exact hs.collecting
    rw [missEntry_of_collecting (collecting?_of hcollecting hfree)] at hunsubstituted hslot ⊢
    set m := t.modUnit u (·.missed (· == i) t.slot.round)
    have hmunit : m.unit u = (s.unit u).missed (fun e => d e || e == i) s.slot.round := by
      rw [unit_modUnit_same, hd, h.slot, missed_missed]
    have hmother : m.unit u.other = s.unit u.other := (unit_modUnit_other ..).trans h.other
    have hmslot : m.slot = s.slot := h.slot ▸ by cases u <;> rfl
    have hmcalled : m.called = s.called := (modUnit_called ..).trans h.called
    have hmraises : Raises (·.kind = .snapshot) s m := h.raised.trans (.of_eq (by cases u <;> rfl))
    have ⟨es, hes, _⟩ := hmraises
    by_cases hall : ∀ p ∈ (s.unit u).places, p.status = .pending → (d p.entry || p.entry == i) = true
    · rw [judgeEnd_of_missed hmunit hs.collecting (hmother ▸ hs.noPending) hall] at hunsubstituted ⊢
      obtain ⟨hunit, hraised⟩ := closeCollection_of_missed (hmslot.symm ▸ hmunit) hall hs.places
      rw [hmslot] at hunit hraised
      refine ⟨(closeCollection_slot ..).trans hmslot, (closeCollection_called ..).trans hmcalled,
        hmraises.trans (closeCollection_moves u m).raises, (closeCollection_other ..).trans hmother, hunsubstituted,
        .inr ⟨hunit, es ++ [(s.unit u).ending u 2 s.slot.round], ?_, by simp⟩⟩
      rw [hraised, hes, List.append_assoc]
    · push Not at hall
      obtain ⟨p, hp, hpending, hdp⟩ := hall
      have hwaiting : ∃ p ∈ (s.unit u).places, p.status = .pending ∧ (d p.entry || p.entry == i) = false :=
        ⟨p, hp, hpending, by simpa using hdp⟩
      rw [judgeEnd_of_waiting hmunit hwaiting] at hunsubstituted ⊢
      exact ⟨hmslot, hmcalled, hmraises, hmother, hunsubstituted, .inl ⟨_, hmunit, hwaiting⟩⟩
  · have hrest : (t.unit u).state ≠ .collecting := hover.1 ▸ (after_ne _).1
    have hnone : t.collectorFree := by cases u <;> exact ⟨by assumption, by assumption⟩
    rw [missEntry_of_free hnone]
    exact h

theorem entryOff_course {u : UnitId} {s t : State} (hs : s.collectsAlone u) (h : Course u s t) (i : Nat) : Course u s (entryOff t i) := by
  rcases entryOff_of_unsubstituted h.unsubstituted i with heq | heq <;> rw [heq]
  · exact h
  · have hunit : ∀ v, (t.modEntry i (·.pass .resolving)).unit v = t.unit v := fun v => by cases v <;> rfl
    have hunsubstituted : (t.modEntry i (·.pass .resolving)).unsubstituted :=
      unsubstituted_of_modify (modEntry_image ..) (fun _ _ hf => nomatch hf) h.unsubstituted
    have hpass : Course u s (t.modEntry i (·.pass .resolving)) :=
      ⟨h.slot, h.called, h.raised, (hunit _).trans h.other, hunsubstituted, by rw [hunit]; exact h.course⟩
    exact missEntry_course hs hpass i

theorem missed_none (round : Half) (x : SnapshotUnit) : x.missed (fun _ => false) round = x := by
  simp [SnapshotUnit.missed]

/-- Whatever entries pass, the collection of `u` is in course or has ended PARTIAL. -/
theorem foldl_entryOff_course {u : UnitId} {s : State} (hs : s.collectsAlone u) (hunsub : s.unsubstituted) (is : List Nat) :
    Course u s (is.foldl entryOff s) := by
  have hstart : Course u s s := by
    obtain ⟨p, hp, hpending⟩ := hs.places
    exact ⟨rfl, rfl, .of_eq rfl, rfl, hunsub, .inl ⟨fun _ => false, (missed_none ..).symm, p, hp, hpending, rfl⟩⟩
  exact foldl_keeps (P := Course u s) (fun _ i h => entryOff_course hs h i) is hstart

theorem disarm_of_ne {x : SnapshotUnit} (h : x.state ≠ .pending) : x.disarm = x := if_neg h

/-- The collector's own reaction ends a collection that is in course still ABORTED, and leaves one that has ended (R162). -/
theorem collectorOff_of_course {u : UnitId} {s t : State} (hs : s.collectsAlone u) (hcalled : s.called = 0) (h : Course u s t) :
    (collectorOff t).unit u.other = s.unit u.other
      ∧ ∃ es, (collectorOff t).raised = s.raised ++ es
        ∧ ((collectorOff t).unit u = (s.unit u).over .armed .aborted s.slot.round ∧ (s.unit u).ending u 3 s.slot.round ∈ es
          ∨ (collectorOff t).unit u = (s.unit u).over (s.unit u).after .incomplete s.slot.round
            ∧ (s.unit u).ending u 2 s.slot.round ∈ es) := by
  have htake := takeCall_of_noCall (h.called.trans hcalled)
  have hunits : ∀ v, (takeCall t).unit v = t.unit v := fun v => by rw [htake]; cases v <;> rfl
  have hround : (takeCall t).slot.round = s.slot.round := by rw [htake, ← h.slot]
  have hraised : (takeCall t).raised = t.raised := by rw [htake]
  have hfree : (t.unit u.other).state ≠ .collecting := h.other ▸ hs.free
  have hother : (s.unit u.other).disarm = s.unit u.other := disarm_of_ne hs.noPending
  rcases h.course with ⟨d, hd, -⟩ | ⟨hover, es, hes, hmem⟩
  · obtain ⟨es, hes, -⟩ := h.raised
    have hcollecting : (takeCall t).collecting? = some u :=
      collecting?_of (by rw [hunits, hd]; exact hs.collecting) (by rw [hunits]; exact hfree)
    have hunit : ((takeCall t).modUnit u fun x =>
        { x with
          state := .armed, summary := .aborted, places := x.places.map (missPlace (takeCall t).slot.round)
          deadlineDue := false }).unit u = (s.unit u).over .armed .aborted s.slot.round := by
      rw [unit_modUnit_same, hunits, hround, hd, missPlaces_missed]
      rfl
    have hmodRound : ∀ f, ((takeCall t).modUnit u f).slot.round = s.slot.round := fun f => hround ▸ by cases u <;> rfl
    have hmodRaised : ∀ f, ((takeCall t).modUnit u f).raised = s.raised ++ es := fun f => (hraised.trans hes) ▸ by cases u <;> rfl
    rw [collectorOff_of_collecting hcollecting]
    refine ⟨?_, es ++ [(s.unit u).ending u 3 s.slot.round], ?_, .inl ⟨?_, by simp⟩⟩
    · rw [unit_disarm, abortCollection_other, hunits, h.other, hother]
    · show (abortCollection u (takeCall t)).raised = _
      rw [abortCollection, raiseSnapshot_of_over (by rw [hmodRound]; exact hunit), hmodRound, hmodRaised, List.append_assoc]
      rfl
    · rw [unit_disarm, abortCollection, raiseSnapshot, unit_raise, hunit]
      exact disarm_of_ne (by simp [SnapshotUnit.over])
  · have hrest : (t.unit u).state ≠ .collecting := hover ▸ (after_ne _).1
    have hnone : (takeCall t).collecting? = none := by
      have h1 := hunits .a
      have h2 := hunits .b
      simp only [State.unit] at h1 h2
      rw [State.collecting?, h1, h2]
      cases u <;> simp_all [State.unit, UnitId.other]
    rw [collectorOff_of_none hnone]
    refine ⟨?_, es, hraised.trans hes, .inr ⟨?_, hmem⟩⟩
    · rw [unit_disarm, hunits, h.other, hother]
    · rw [unit_disarm, hunits, hover]
      exact disarm_of_ne (after_ne _).2

end Sys2Proof.Machine

namespace Sys2Proof.Machine

/-- A collection in course while the station enters OFF, where no substitution is watched: it ends ABORTED, or PARTIAL where its last pending
place is of an entry that passes before the collector reacts (R155, R162). -/
theorem imageOff_ends {u : UnitId} {s : State} (hs : s.collectsAlone u) (hunsub : s.unsubstituted) (hcalled : s.called = 0) :
    ∃ es, (imageOff s).raised = s.raised ++ es
      ∧ ((imageOff s).unit u = (s.unit u).over .armed .aborted s.slot.round ∧ (s.unit u).ending u 3 s.slot.round ∈ es
        ∨ (imageOff s).unit u = (s.unit u).over (s.unit u).after .incomplete s.slot.round
          ∧ (s.unit u).ending u 2 s.slot.round ∈ es) := by
  have hcourse := foldl_entryOff_course hs hunsub ((List.range s.image.length).take s.order.offAfter)
  obtain ⟨hother, es, hes, hends⟩ := collectorOff_of_course hs hcalled hcourse
  simp only [imageOff]
  have hunsub' : (collectorOff (((List.range s.image.length).take s.order.offAfter).foldl entryOff s)).unsubstituted := by
    intro e he
    rw [collectorOff_image] at he
    exact hcourse.unsubstituted e he
  generalize collectorOff _ = t at *
  have hu : (t.unit u).state ≠ .collecting := by
    rcases hends with ⟨h, -⟩ | ⟨h, -⟩ <;> rw [h]
    · simp [SnapshotUnit.over]
    · exact (after_ne _).1
  have ho : (t.unit u.other).state ≠ .collecting := hother ▸ hs.free
  have hfree : t.collectorFree := by cases u <;> exact ⟨by assumption, by assumption⟩
  rw [foldl_entryOff_of_free _ hunsub' hfree]
  refine ⟨es, hes, ?_⟩
  cases u <;> exact hends

/-- A unit that does not collect, while the other does not either, is no more than disarmed. -/
theorem imageOff_unit_of_free {s : State} (hfree : s.collectorFree) (hunsub : s.unsubstituted) (hcalled : s.called = 0) (u : UnitId) :
    (imageOff s).unit u = (s.unit u).disarm := by
  rw [imageOff_of_free hunsub hcalled hfree]
  cases u <;> rfl

theorem imageOff_raises (s : State) : Raises (fun e => e.kind = .watch ∨ e.kind = .snapshot) s (imageOff s) := by
  simp only [imageOff]
  exact ((foldl_entryOff_raises _ s).trans ((collectorOff_raises _).mono fun _ => .inr)).trans (foldl_entryOff_raises _ _)

theorem ofKind_eq_nil {k : EventKind} {es : List EventRecord} (h : ∀ e ∈ es, e.kind ≠ k) : ofKind k es = [] := by
  rw [ofKind, List.filter_eq_nil_iff]
  exact fun e he => by simpa using h e he

/-! ## Entering OFF: the image unit, the collector and the request unit, in either order -/

theorem requestsOff_unit (u : UnitId) (s : State) : (requestsOff s).unit u = s.unit u := by
  cases u
  · exact (congrArg State.unitA (requestsOff_outsideRequests s) :)
  · exact (congrArg State.unitB (requestsOff_outsideRequests s) :)

theorem requestsOff_image (s : State) : (requestsOff s).image = s.image := (congrArg State.image (requestsOff_outsideRequests s) :)

theorem requestsOff_slot (s : State) : (requestsOff s).slot = s.slot := (congrArg State.slot (requestsOff_outsideRequests s) :)

theorem requestsOff_called (s : State) : (requestsOff s).called = s.called := (congrArg State.called (requestsOff_outsideRequests s) :)

theorem imageOff_req (s : State) : (imageOff s).req = s.req := (congrArg State.req (imageOff_outsideImage s) :)

theorem imageOff_slot (s : State) : (imageOff s).slot = s.slot := (congrArg State.slot (imageOff_outsideImage s) :)

theorem imageAndRequestsOff_image (s : State) : (imageAndRequestsOff s).image = s.image.map ImageEntry.offed := by
  unfold imageAndRequestsOff
  split
  · rw [requestsOff_image, imageOff_image]
  · rw [imageOff_image, requestsOff_image]

theorem imageAndRequestsOff_rests {s : State} (h : s.oneCollects) (u : UnitId) :
    ((imageAndRequestsOff s).unit u).state ≠ .collecting ∧ ((imageAndRequestsOff s).unit u).state ≠ .pending := by
  unfold imageAndRequestsOff
  split
  · rw [requestsOff_unit]
    exact imageOff_rests h u
  · refine imageOff_rests (s := requestsOff s) ?_ u
    have ha := requestsOff_unit .a s
    have hb := requestsOff_unit .b s
    simp only [State.unit] at ha hb
    rwa [State.oneCollects, ha, hb]

/-- The records left when the station has entered OFF (R147). -/
theorem imageAndRequestsOff_list {s : State} (hids : (s.req.list.map (·.id)).Nodup) :
    (imageAndRequestsOff s).req.list = (s.req.list.filter fun r => r.origin == .application).map (·.offed) := by
  unfold imageAndRequestsOff
  split
  · rw [requestsOff_of_nodup (by rwa [imageOff_req]), imageOff_req]
  · rw [imageOff_req, requestsOff_of_nodup hids]

/-- The REQUEST events of entering OFF (R147). -/
def State.abortions (s : State) : List EventRecord :=
  ((s.req.list.filter fun r => r.origin == .application).filter (·.state.live)).map (·.abortion s.slot.round)

theorem abortions_kind {s : State} : ∀ e ∈ s.abortions, e.kind = .request := by
  intro e he
  obtain ⟨r, -, rfl⟩ := List.mem_map.mp he
  rfl

/-- The events of both units' reactions: WATCH and SNAPSHOT, and a REQUEST event for each record that ends. -/
theorem imageAndRequestsOff_raised (s : State) :
    ∃ es, (imageAndRequestsOff s).raised = s.raised ++ es ∧ (∀ e ∈ es, e.kind = .watch ∨ e.kind = .snapshot ∨ e.kind = .request)
      ∧ ((s.req.list.map (·.id)).Nodup → ofKind .request es = s.abortions) := by
  have hother : ∀ es : List EventRecord, (∀ e ∈ es, e.kind = .watch ∨ e.kind = .snapshot) → ofKind .request es = [] :=
    fun es h => ofKind_eq_nil fun e he hk => by rcases h e he with h | h <;> simp [h] at hk
  unfold imageAndRequestsOff
  split
  · obtain ⟨es, hes, hkind⟩ := imageOff_raises s
    obtain ⟨fs, hfs, hkind'⟩ := requestsOff_raises (imageOff s)
    refine ⟨es ++ fs, by rw [hfs, hes, List.append_assoc], ?_, fun hids => ?_⟩
    · intro e he
      rcases List.mem_append.mp he with h | h
      · exact (hkind e h).imp_right .inl
      · exact .inr (.inr (hkind' e h))
    · rw [requestsOff_of_nodup (by rwa [imageOff_req])] at hfs
      have hfs := List.append_cancel_left hfs
      rw [imageOff_req, imageOff_slot] at hfs
      rw [ofKind_append, hother es hkind, ← hfs]
      exact ofKind_self abortions_kind
  · obtain ⟨fs, hfs, hkind'⟩ := requestsOff_raises s
    obtain ⟨es, hes, hkind⟩ := imageOff_raises (requestsOff s)
    refine ⟨fs ++ es, by rw [hes, hfs, List.append_assoc], ?_, fun hids => ?_⟩
    · intro e he
      rcases List.mem_append.mp he with h | h
      · exact .inr (.inr (hkind' e h))
      · exact (hkind e h).imp_right .inl
    · rw [requestsOff_of_nodup hids] at hfs
      have hfs := List.append_cancel_left hfs
      rw [ofKind_append, hother es hkind, ← hfs, List.append_nil]
      exact ofKind_self abortions_kind

theorem requestsOff_collectsAlone {u : UnitId} {s : State} (h : s.collectsAlone u) : (requestsOff s).collectsAlone u := by
  obtain ⟨h1, h2, h3, h4⟩ := h
  constructor <;> rwa [requestsOff_unit]

theorem requestsOff_collectorFree {s : State} (h : s.collectorFree) : (requestsOff s).collectorFree := by
  have ha := requestsOff_unit .a s
  have hb := requestsOff_unit .b s
  simp only [State.unit] at ha hb
  rwa [State.collectorFree, ha, hb]

theorem requestsOff_unsubstituted {s : State} (h : s.unsubstituted) : (requestsOff s).unsubstituted := by
  intro e he
  rw [requestsOff_image] at he
  exact h e he

theorem imageAndRequestsOff_ends {u : UnitId} {s : State} (hs : s.collectsAlone u) (hunsub : s.unsubstituted) (hcalled : s.called = 0) :
    ∃ es, (imageAndRequestsOff s).raised = s.raised ++ es
      ∧ ((imageAndRequestsOff s).unit u = (s.unit u).over .armed .aborted s.slot.round ∧ (s.unit u).ending u 3 s.slot.round ∈ es
        ∨ (imageAndRequestsOff s).unit u = (s.unit u).over (s.unit u).after .incomplete s.slot.round
          ∧ (s.unit u).ending u 2 s.slot.round ∈ es) := by
  unfold imageAndRequestsOff
  split
  · obtain ⟨es, hes, hends⟩ := imageOff_ends hs hunsub hcalled
    obtain ⟨fs, hfs, -⟩ := requestsOff_raises (imageOff s)
    refine ⟨es ++ fs, by rw [hfs, hes, List.append_assoc], ?_⟩
    rw [requestsOff_unit]
    exact hends.imp (And.imp_right (List.mem_append_left _)) (And.imp_right (List.mem_append_left _))
  · obtain ⟨fs, hfs, -⟩ := requestsOff_raises s
    obtain ⟨es, hes, hends⟩ := imageOff_ends (requestsOff_collectsAlone hs) (requestsOff_unsubstituted hunsub)
      ((requestsOff_called s).trans hcalled)
    refine ⟨fs ++ es, by rw [hes, hfs, List.append_assoc], ?_⟩
    rw [requestsOff_unit, requestsOff_slot] at hends
    exact hends.imp (And.imp_right (List.mem_append_right _)) (And.imp_right (List.mem_append_right _))

theorem imageAndRequestsOff_unit_of_free {s : State} (hfree : s.collectorFree) (hunsub : s.unsubstituted) (hcalled : s.called = 0)
    (u : UnitId) : (imageAndRequestsOff s).unit u = (s.unit u).disarm := by
  unfold imageAndRequestsOff
  split
  · rw [requestsOff_unit, imageOff_unit_of_free hfree hunsub hcalled]
  · rw [imageOff_unit_of_free (requestsOff_collectorFree hfree) (requestsOff_unsubstituted hunsub)
      ((requestsOff_called s).trans hcalled), requestsOff_unit]

/-- With no collection in course, no watched substitution and no record, entering OFF raises nothing in these units. -/
theorem imageAndRequestsOff_raised_of_free {s : State} (hfree : s.collectorFree) (hunsub : s.unsubstituted) (hcalled : s.called = 0)
    (hlist : s.req.list = []) : (imageAndRequestsOff s).raised = s.raised := by
  have hrequests : ∀ t : State, t.req.list = [] → (requestsOff t).raised = t.raised := by
    intro t ht
    rw [requestsOff_of_nodup (by simp [ht])]
    simp [ht]
  unfold imageAndRequestsOff
  split
  · rw [hrequests _ (by rw [imageOff_req, hlist]), imageOff_of_free hunsub hcalled hfree]
  · rw [imageOff_of_free (requestsOff_unsubstituted hunsub) ((requestsOff_called s).trans hcalled)
      (requestsOff_collectorFree hfree)]
    exact hrequests s hlist

/-! ## Entering OFF: every block (R52) -/

/-- The state the image unit, the collector and the request unit react in on entering OFF. -/
def turnedOff (cause : Nat) (s : State) : State := stationOff (passStation .off cause (takePeriods s))

theorem enterOff_eq (cause : Nat) (s : State) :
    enterOff cause s = dueOff (slotOff (peersOff (answersOff (lineOff (imageAndRequestsOff (turnedOff cause s)))))) := rfl

theorem turnedOff_raised (cause : Nat) (s : State) :
    ∃ es, (turnedOff cause s).raised = s.raised ++ (es ++ [⟨.station, 1, s.ctl.config.station, cause, 0, s.slot.round⟩])
      ∧ (∀ e ∈ es, e.kind = .snapshot) ∧ (s.due.periods = false → es = []) := by
  obtain ⟨t, -, hraised, -, -, hmoves⟩ := takePeriods_moves s
  obtain ⟨es, hes, hkind⟩ := hmoves.raises
  have hctl : (takePeriods s).ctl = s.ctl := (congrArg State.ctl (takePeriods_outsideUnits s) :)
  have hslot : (takePeriods s).slot = s.slot := (congrArg State.slot (takePeriods_outsideUnits s) :)
  refine ⟨es, ?_, hkind, fun hdue => ?_⟩
  · simp only [turnedOff, stationOff, passStation, raiseStation, modCtl_raised, raise_raised, modCtl_ctl, modCtl_slot, hes, hraised,
      hctl, hslot, List.append_assoc]
    rfl
  · have hsame : takePeriods s = s := by simp [takePeriods, hdue]
    rw [hsame, hraised] at hes
    exact List.self_eq_append_right.mp hes

theorem turnedOff_outside (cause : Nat) (s : State) :
    (turnedOff cause s).pub = s.pub ∧ (turnedOff cause s).peers = s.peers ∧ (turnedOff cause s).req = s.req
      ∧ (turnedOff cause s).line = s.line ∧ (turnedOff cause s).trig = s.trig ∧ (turnedOff cause s).slot = s.slot
      ∧ (turnedOff cause s).image = s.image ∧ (turnedOff cause s).host = s.host := by
  have h := takePeriods_outsideUnits s
  exact ⟨(congrArg State.pub h :), (congrArg State.peers h :), (congrArg State.req h :), (congrArg State.line h :),
    (congrArg State.trig h :), (congrArg State.slot h :), (congrArg State.image h :), (congrArg State.host h :)⟩

theorem turnedOff_ctl (cause : Nat) (s : State) :
    (turnedOff cause s).ctl
      = { s.ctl with
          state := .off, listening := 0, leaving := 0, hostLoss := 0
          cond := { s.ctl.cond with leaving := false, hostLost := false } } := by
  have h : (takePeriods s).ctl = s.ctl := (congrArg State.ctl (takePeriods_outsideUnits s) :)
  simp only [turnedOff, stationOff, passStation, raiseStation, modCtl_ctl, raise_ctl, h]

theorem turnedOff_oneCollects {cause : Nat} {s : State} (h : s.oneCollects) : (turnedOff cause s).oneCollects := by
  obtain ⟨t, -, -, ha, hb, hmoves⟩ := takePeriods_moves s
  exact hmoves.oneCollects (by rwa [State.oneCollects, ha, hb])

/-- With no period count due, the units stand as they did. -/
theorem turnedOff_unit {s : State} (h : s.due.periods = false) (cause : Nat) (u : UnitId) :
    (turnedOff cause s).unit u = s.unit u ∧ (turnedOff cause s).called = s.called := by
  have hsame : takePeriods s = s := by simp [takePeriods, h]
  simp only [turnedOff, hsame]
  cases u <;> exact ⟨rfl, rfl⟩

end Sys2Proof.Machine

namespace Sys2Proof.Machine

/-- Frames of the four blocks the last reactions of entering OFF act on. -/
theorem enterOff_outside (cause : Nat) (s : State) :
    let v := imageAndRequestsOff (turnedOff cause s)
    (enterOff cause s).image = v.image ∧ (enterOff cause s).req = v.req ∧ (enterOff cause s).raised = v.raised
      ∧ ∀ u, (enterOff cause s).unit u = v.unit u :=
  ⟨rfl, rfl, rfl, fun u => by cases u <;> rfl⟩

theorem enterOff_ctl (cause : Nat) (s : State) :
    (enterOff cause s).ctl
      = { s.ctl with
          state := .off, listening := 0, leaving := 0, hostLoss := 0
          cond := { s.ctl.cond with leaving := false, hostLost := false } } :=
  (congrArg State.ctl (imageAndRequestsOff_outsidePeers (turnedOff cause s)) :).trans (turnedOff_ctl cause s)

theorem enterOff_entry (cause : Nat) (s : State) (i : Nat) : (enterOff cause s).entry i = (s.entry i).offed := by
  obtain ⟨-, -, -, -, -, -, himage, -⟩ := turnedOff_outside cause s
  rw [State.entry, (enterOff_outside cause s).1, imageAndRequestsOff_image, himage, State.entry, List.getD_eq_getElem?_getD,
    List.getD_eq_getElem?_getD, List.getElem?_map]
  cases s.image[i]? <;> rfl

theorem enterOff_requests (cause : Nat) (s : State) :
    (enterOff cause s).req.tagCounter = s.req.tagCounter ∧ (enterOff cause s).req.lateAnswers = s.req.lateAnswers
      ∧ ((s.req.list.map (·.id)).Nodup →
        (enterOff cause s).req.list = (s.req.list.filter fun r => r.origin == .application).map (·.offed)) := by
  obtain ⟨-, -, hreq, -⟩ := turnedOff_outside cause s
  obtain ⟨-, hv, -⟩ := enterOff_outside cause s
  have hframe := imageAndRequestsOff_outsidePeers (turnedOff cause s)
  rw [hv, ← hreq]
  exact ⟨(congrArg (·.req.tagCounter) hframe :), (congrArg (·.req.lateAnswers) hframe :), imageAndRequestsOff_list⟩

/-- The events of entering OFF: SNAPSHOT events of period counts due, STATION STATE, and those of the image unit, the collector and the
request unit. -/
theorem enterOff_raised (cause : Nat) (s : State) :
    ∃ as bs, (enterOff cause s).raised
        = s.raised ++ (as ++ [⟨.station, 1, s.ctl.config.station, cause, 0, s.slot.round⟩] ++ bs)
      ∧ (∀ e ∈ as, e.kind = .snapshot) ∧ (∀ e ∈ bs, e.kind = .watch ∨ e.kind = .snapshot ∨ e.kind = .request)
      ∧ ((s.req.list.map (·.id)).Nodup → ofKind .request bs = s.abortions)
      ∧ (s.due.periods = false → as = [])
      ∧ (imageAndRequestsOff (turnedOff cause s)).raised = (turnedOff cause s).raised ++ bs := by
  obtain ⟨as, has, hkind, hnone⟩ := turnedOff_raised cause s
  obtain ⟨bs, hbs, hkind', hrequest⟩ := imageAndRequestsOff_raised (turnedOff cause s)
  obtain ⟨-, -, hreq, -, -, hslot, -⟩ := turnedOff_outside cause s
  refine ⟨as, bs, ?_, hkind, hkind', ?_, hnone, hbs⟩
  · rw [(enterOff_outside cause s).2.2.1, hbs, has, List.append_assoc]
  · intro hids
    rw [hrequest (by rwa [hreq]), State.abortions, hreq, hslot]
    rfl

theorem imageAndRequestsOff_peers (s : State) : (imageAndRequestsOff s).peers = s.peers := by
  have himage : ∀ t, (imageOff t).peers = t.peers := fun t => (congrArg State.peers (imageOff_outsideImage t) :)
  have hrequests : ∀ t, (requestsOff t).peers = t.peers := fun t => (congrArg State.peers (requestsOff_outsideRequests t) :)
  unfold imageAndRequestsOff
  split
  · rw [hrequests, himage]
  · rw [himage, hrequests]

/-- The events of one kind among those of entering OFF. -/
theorem ofKind_enterOff {k : EventKind} {as bs : List EventRecord} (e : EventRecord) (he : e.kind = .station)
    (has : ∀ e ∈ as, e.kind = .snapshot) (hk : k ≠ .snapshot) :
    ofKind k (as ++ [e] ++ bs) = (if k = .station then [e] else []) ++ ofKind k bs := by
  rw [ofKind_append, ofKind_append, ofKind_eq_nil fun e h => by rw [has e h]; exact hk.symm]
  by_cases hs : k = .station
  · simp [ofKind, he, hs]
  · simp [ofKind, he, hs, Ne.symm hs]

/-- Where a unit does not collect alone but the other does not collect either, no collection is in course. -/
theorem collectorFree_of {s : State} {u : UnitId} (hu : (s.unit u).state ≠ .collecting) (ho : (s.unit u.other).state ≠ .collecting) :
    s.collectorFree := by
  cases u <;> exact ⟨by assumption, by assumption⟩

/-- Entering OFF does with every block what `State.entersOff` says, and raises STATION STATE once (R52, R57). -/
theorem enterOff_entersOff (cause : Nat) (s : State) :
    ∃ es, (enterOff cause s).raised = s.raised ++ es ∧ s.entersOff (enterOff cause s) es
      ∧ ofKind .station es = [⟨.station, 1, s.ctl.config.station, cause, 0, s.slot.round⟩] := by
  obtain ⟨as, bs, hraised, has, hbs, hrequest, hnone, hbs'⟩ := enterOff_raised cause s
  obtain ⟨hpub, hpeers, hreq, hline, htrig, hslot, himage, -⟩ := turnedOff_outside cause s
  have hframe := imageAndRequestsOff_outsidePeers (turnedOff cause s)
  obtain ⟨htag, hlate, hlist⟩ := enterOff_requests cause s
  obtain ⟨-, -, -, hunit⟩ := enterOff_outside cause s
  have hunsub : s.unsubstituted → (turnedOff cause s).unsubstituted := fun h e he => h e (himage ▸ he)
  refine ⟨_, hraised, ⟨enterOff_ctl cause s, enterOff_slot cause s, ?_, ?_, ?_, ?_, ?_, htag, hlate, ?_, ?_, rfl, ?_, ?_⟩, ?_⟩
  · have hv : (imageAndRequestsOff (turnedOff cause s)).pub = s.pub := (congrArg State.pub hframe :).trans hpub
    show { (imageAndRequestsOff (turnedOff cause s)).pub with answers := [] } = _
    rw [hv]
  · show (imageAndRequestsOff (turnedOff cause s)).peers.map _ = _
    rw [imageAndRequestsOff_peers, hpeers]
  · intro i
    rw [enterOff_entry]
    exact ⟨fun h => if_pos h, fun h h' => if_neg (not_or.mpr ⟨h, h'⟩)⟩
  · rw [ofKind_enterOff _ rfl has (by decide)]
    exact ofKind_eq_nil fun e he hk => by rcases hbs e he with h | h | h <;> simp [h] at hk
  · intro hids
    rw [ofKind_enterOff _ rfl has (by decide), hrequest hids, hlist hids]
    have hlive : ∀ r : RequestRecord, (r.state == .waiting || r.state == .sent) = r.state.live := fun r => by cases r.state <;> rfl
    simp only [hlive]
    exact ⟨rfl, rfl⟩
  · rw [enterOff_line]
    have hphase : ∀ x : Transmission, x.phase.isSending = decide (x.phase ≠ .assembled) := fun x => by
      cases h : x.phase <;> simp [TxPhase.isSending]
    simp only [lineOff, modLine_line, hphase]
  · exact (congrArg State.trig hframe :).trans htrig
  · intro hone u
    rw [hunit]
    exact imageAndRequestsOff_rests (turnedOff_oneCollects hone) u
  · intro hcalled hdue hquiet u ho
    obtain ⟨hsame, hcalled'⟩ := turnedOff_unit hdue cause u
    have hother := (turnedOff_unit hdue cause u.other).1
    have hquiet := hunsub hquiet
    rw [hunit]
    refine ⟨fun hu hplaces hp => ?_, fun hu => ?_⟩
    · have halone : (turnedOff cause s).collectsAlone u := ⟨hsame ▸ hu, hsame ▸ hplaces, hother ▸ ho, hother ▸ hp⟩
      obtain ⟨bs', hbs'', hends⟩ := imageAndRequestsOff_ends halone hquiet (hcalled'.trans hcalled)
      obtain rfl := List.append_cancel_left (hbs'.symm.trans hbs'')
      rw [hsame, hslot] at hends
      exact hends.imp (And.imp_right fun h => List.mem_append_right _ h) (And.imp_right fun h => List.mem_append_right _ h)
    · have hrest : (s.unit u).state ≠ .collecting ∧ (s.unit u).state ≠ .pending := by
        rcases hu with h | h | h <;> simp [h]
      rw [imageAndRequestsOff_unit_of_free (collectorFree_of (hsame ▸ hrest.1) (hother ▸ ho)) hquiet (hcalled'.trans hcalled),
        hsame]
      exact disarm_of_ne hrest.2
  · rw [ofKind_enterOff _ rfl has (by decide),
      ofKind_eq_nil fun e he hk => by rcases hbs e he with h | h | h <;> simp [h] at hk]
    rfl

end Sys2Proof.Machine

namespace Sys2Proof.Machine

/-! ## The bit time in which a frame's last stop bit goes out (R1, R21) -/

theorem byteLevels_length (b : Byte) : (byteLevels b).length = 10 := by simp [byteLevels]

/-- The last bit of a frame is a stop bit. -/
theorem lastLevel_recessive (bytes : List Byte) (k : Nat) (h : k + 1 = 10 * bytes.length) :
    (frameLevels bytes).getD k .recessive = .recessive := by
  induction bytes generalizing k with
  | nil => simp at h
  | cons b bytes ih =>
    have hcons : frameLevels (b :: bytes) = byteLevels b ++ frameLevels bytes := by simp [frameLevels]
    rw [hcons]
    simp only [List.length_cons] at h
    by_cases hk : k < 10
    · have : k = 9 := by omega
      subst this
      rw [List.getD_append _ _ _ _ (by rw [byteLevels_length]; omega)]
      rfl
    · rw [List.getD_append_right _ _ _ _ (by rw [byteLevels_length]; omega), byteLevels_length]
      exact ih (k - 10) (by omega)

/-- The slot timer's step away from its events: none in OFF (R16). -/
def State.timed (s : State) : State :=
  s.modSlot fun u => { u with timer := if s.ctl.state = .off then u.timer else u.timer + 1 }

theorem stepTimer_eq_timed {s t : State} (h : s.slotTimeEnds = false) (htx : t.line.tx = none)
    (hawake : t.ctl.state ≠ .off → s.ctl.state ≠ .off ∧ t.slot.timer = s.slot.timer) : stepTimer t = t.timed := by
  refine stepTimer_eq_timer ?_
  by_cases hoff : t.ctl.state = .off
  · simp [State.slotTimeEnds, hoff]
  · obtain ⟨hs, htimer⟩ := hawake hoff
    simp only [State.slotTimeEnds, htimer, htx, Option.any_none, Bool.and_false, Bool.or_false, Bool.and_eq_false_iff,
      Bool.or_eq_false_iff] at h ⊢
    refine h.imp (fun h => absurd ?_ hs) And.left
    simpa using h

/-- The line unit when a frame has been sent, before its report. -/
def State.sentLine (s : State) : LineUnit :=
  { s.line.measure .recessive with
    tx := none, sequence := s.line.sequence + 1, receiver := (s.heard .recessive).markOwn }

/-- The report of a frame does not look at its phase. -/
theorem reportEnd_phase (x : Transmission) (p : TxPhase) (e : TxEnd) (s : State) :
    reportEnd { x with phase := p } e s = reportEnd x e s := rfl

/-- A frame being sent whose last stop bit goes out in the bit time that comes, and nothing else comes of it. -/
structure State.sends (s : State) (x : Transmission) : Prop where
  mid : s.midSlot
  hold : s.line.hold = false
  tx : s.line.tx = some x
  phase : ∃ k, x.phase = .sending k ∧ k + 1 = 10 * x.bytes.length
  going : (s.heard .recessive).ended = false

theorem State.sends.settled {s : State} {x : Transmission} (h : s.sends x) : s.raised = [] := h.mid.1.2.1

/-- The row of a sent frame: the report, and the timer's step. -/
theorem row_of_sent {s r : State} {x : Transmission} (hs : s.sends x)
    (hr : reportEnd x .sent { pastBeginning s with line := s.sentLine } = r)
    (hawake : r.ctl.state ≠ .off → s.ctl.state ≠ .off ∧ r.slot.timer = s.slot.timer) :
    exec (.transmissionSent [] .recessive) s = .next (finish r.timed) := by
  obtain ⟨k, hk, hlast⟩ := hs.phase
  have htx : (s.hearing .recessive).line.tx = some x := (measure_tx .recessive s.line).trans hs.tx
  have hlevel : x.level = .recessive := by
    rw [Transmission.level, hk]
    exact lastLevel_recessive x.bytes k hlast
  have hread : takeSent (readBack .recessive (s.hearing .recessive)) = r := by
    rw [readBack_of_agrees htx hk hlevel, takeSent]
    simp only [modLine_line]
    rw [if_pos (by simp [Transmission.allSent, frameBits, hlast]), reportEnd_phase, ← hr, State.sentLine,
      ← measure_sequence .recessive s.line]
    rfl
  have hframe := hr ▸ reportEnd_lineFrame x .sent { pastBeginning s with line := s.sentLine }
  have hnone : r.line.tx = none := hframe.none rfl
  have hends : r.timed.lineEnds = false := by
    refine lineEnds_of_going ?_ ?_
    · show r.line.receiver.ended = false
      rw [hframe.same]
      exact (markOwn_ended _).trans hs.going
    · show r.line.hold = false
      rw [hframe.same]
      exact (measure_hold .recessive s.line).trans hs.hold
  have hnow : r.lineEnds = false := hends
  rw [row_of_quiet (by rfl) hs.mid.1, hearBit_of_noHold (.inr (.inl rfl))]
  simp only [endBit, hread, hnow, Bool.false_and, Bool.false_eq_true, if_false, stepTimer_eq_timed hs.mid.2 hnone hawake,
    takeLineEnd_of_not hends]

/-! ## The reports of a sent frame -/

/-- The queue once the answer a frame carried has left it (R75). -/
def Transmission.answersLeft (x : Transmission) (s : State) : List Answer :=
  match x.answer with
  | some id => s.pub.answers.filter fun a => a.id ≠ id
  | none => s.pub.answers

/-- A sent frame without a request leaves its mark on the answer queue only. -/
theorem reportToLists_sent {x : Transmission} (hreq : x.request = none) (s : State) :
    reportToLists x .sent s = { s with pub := { s.pub with answers := x.answersLeft s } } := by
  simp only [reportToLists, hreq, Transmission.answersLeft]
  cases x.answer with
  | none => rfl
  | some id =>
    have hfilter : (s.pub.answers.filter fun a => a.id != id) = s.pub.answers.filter fun a => a.id ≠ id :=
      List.filter_congr fun a _ => by by_cases h : a.id = id <;> simp [h]
    simp only [answerSent, State.modPub, hfilter]

/-- A claim frame carries neither (R20). -/
theorem reportToLists_sent_claim {x : Transmission} (ha : x.answer = none) (hreq : x.request = none) (s : State) :
    reportToLists x .sent s = s := by
  rw [reportToLists_sent hreq, Transmission.answersLeft, ha]

theorem reportEnd_of_lists {x : Transmission} {e : TxEnd} (h : ∀ s, reportToLists x e s = s) (s : State) :
    reportEnd x e s = reportToSlots x e s := by
  simp only [reportEnd, h, ite_self]

theorem countP_modify_gt {α : Type} {p : α → Bool} {f : α → α} {l : List α} {k : Nat} (hk : k < l.length) (h1 : p l[k] = false)
    (h2 : p (f l[k]) = true) : (l.modify k f).countP p = l.countP p + 1 := by
  induction l generalizing k with
  | nil => simp at hk
  | cons a l ih =>
    cases k with
    | zero =>
      simp only [List.getElem_cons_zero] at h1 h2
      simp [h1, h2]
    | succ k =>
      simp only [List.getElem_cons_succ] at h1 h2
      have hk : k < l.length := by simpa using hk
      simp only [List.modify_succ_cons, List.countP_cons, ih hk h1 h2]
      omega

/-- A claim that ends OWNED adds one to the OWNED records. -/
theorem ownedCount_owned {s : State} {k c : Nat} (hst : (s.slotAt k).state = .claiming c) :
    (s.modSlotAt k fun r => { r with state := .owned 0 }).ownedCount = s.ownedCount + 1 := by
  have hk := lt_of_slotAt_ne (s := s) (k := k) (by rw [hst]; simp)
  rw [State.slotAt, List.getD_eq_getElem _ _ hk] at hst
  exact countP_modify_gt hk (by rw [hst]; rfl) rfl

/-- The state before a sent frame's report: a bit time later but for the timer. -/
def State.sent (s : State) : State := { pastBeginning s with line := s.sentLine }

/-- A bit time later, the frame sent, and its slot's record changed. -/
def State.sentWith (s : State) (k : Nat) (f : SlotRecord → SlotRecord) : State :=
  { s.afterBit .recessive with
    line := s.sentLine, slot := { (s.afterBit .recessive).slot with map := s.slot.map.modify k f } }

theorem timed_sent (s : State) (k : Nat) (f : SlotRecord → SlotRecord) : (s.sent.modSlotAt k f).timed = s.sentWith k f := by
  rw [State.sentWith, afterBit_eq]
  rfl

/-- A row of a sent frame that raises nothing. -/
theorem gives_of_sent {s r : State} {x : Transmission} (hs : s.sends x) (hr : reportEnd x .sent s.sent = r)
    (hawake : r.ctl.state ≠ .off → s.ctl.state ≠ .off ∧ r.slot.timer = s.slot.timer) (hraised : r.raised = []) :
    Gives (.transmissionSent [] .recessive) s r.timed :=
  ⟨_, row_of_sent hs hr hawake, finish_visible _ hraised⟩

/-- A row of a sent frame whose report raises one event. -/
theorem gives_of_sent_event {s r : State} {x : Transmission} (hs : s.sends x) {kind : EventKind} {code n d : Nat} {v : Word}
    (hr : reportEnd x .sent s.sent = raise kind code n d v r)
    (hawake : r.ctl.state ≠ .off → s.ctl.state ≠ .off ∧ r.slot.timer = s.slot.timer) (hraised : r.raised = []) :
    Gives (.transmissionSent [] .recessive) s (r.timed.withEvent kind code n d v) := by
  refine ⟨_, row_of_sent hs hr hawake, ?_⟩
  have htimed : (raise kind code n d v r).timed = raise kind code n d v r.timed := rfl
  rw [htimed, finish_raise (s := r.timed) hraised]
  rfl

/-! ### A claim frame (R30) -/

theorem reportEnd_sent_claim {x : Transmission} (hkind : x.kind = .claimFrame) (ha : x.answer = none) (hreq : x.request = none)
    {s : State} {c : Nat} (hst : (s.slotAt x.slot).state = .claiming c) : reportEnd x .sent s = reportClaim x .sent c s := by
  rw [reportEnd_of_lists (reportToLists_sent_claim ha hreq)]
  simp only [reportToSlots, hkind, hst]

/-- A clean claim short of the third raises the clean count. -/
theorem sentClaim_counts {s : State} {x : Transmission} {c : Nat} (hs : s.sends x) (hkind : x.kind = .claimFrame) (ha : x.answer = none)
    (hreq : x.request = none) (hst : (s.slotAt x.slot).state = .claiming c) (hc : c < 2) :
    Gives (.transmissionSent [] .recessive) s (s.sentWith x.slot fun r => { r with state := .claiming (c + 1) }) := by
  rw [← timed_sent]
  refine gives_of_sent hs ?_ (fun h => ⟨h, rfl⟩) hs.settled
  rw [reportEnd_sent_claim hkind ha hreq (s := s.sent) hst]
  exact if_pos (by simp only [Config.cleanClaims]; omega)

theorem reportClaim_third {s : State} {x : Transmission} {c : Nat} (hst : (s.slotAt x.slot).state = .claiming c) (hc : 2 ≤ c) :
    reportClaim x .sent c s
      = followOwned (raise .slot 1 x.slot 0 (BitVec.ofNat 32 (s.ownedCount + 1))
        (s.modSlotAt x.slot fun r => { r with state := .owned 0 })) := by
  rw [← ownedCount_owned hst]
  exact if_neg (by simp only [Config.cleanClaims]; omega)

/-- The third clean claim of a MEMBER. -/
theorem sentClaim_owns {s : State} {x : Transmission} {c : Nat} (hs : s.sends x) (hkind : x.kind = .claimFrame) (ha : x.answer = none)
    (hreq : x.request = none) (hst : (s.slotAt x.slot).state = .claiming c) (hc : 2 ≤ c) (hstate : s.ctl.state = .member) :
    Gives (.transmissionSent [] .recessive) s
      ((s.sentWith x.slot fun r => { r with state := .owned 0 }).withEvent
        .slot 1 x.slot 0 (BitVec.ofNat 32 (s.ownedCount + 1))) := by
  rw [← timed_sent]
  refine gives_of_sent_event hs ?_ (fun h => ⟨h, rfl⟩) hs.settled
  rw [reportEnd_sent_claim hkind ha hreq (s := s.sent) hst, reportClaim_third (s := s.sent) hst hc]
  refine (followOwned_member (s := raise _ _ _ _ _ (s.sent.modSlotAt x.slot _)) hstate).trans (if_neg ?_)
  have : (s.sent.modSlotAt x.slot fun r => { r with state := .owned 0 }).ownedCount = s.ownedCount + 1 :=
    ownedCount_owned (s := s.sent) hst
  exact fun h => absurd (this.symm.trans h) (by omega)

/-- The third clean claim of a CLAIMING station: it is a MEMBER from then on (R30, R48). -/
theorem sentClaim_joins {s : State} {x : Transmission} {c : Nat} (hs : s.sends x) (hkind : x.kind = .claimFrame) (ha : x.answer = none)
    (hreq : x.request = none) (hst : (s.slotAt x.slot).state = .claiming c) (hc : 2 ≤ c) (hstate : s.ctl.state = .claiming)
    (hnone : s.ownedCount = 0) :
    exec (.transmissionSent [] .recessive) s
      = .next (finish { s.sentWith x.slot fun r => { r with state := .owned 0 } with
          ctl := { s.ctl with state := .member }
          raised := s.raised ++ [⟨.slot, 1, x.slot, 0, 1, s.slot.round⟩] ++ [⟨.station, 1, s.ctl.config.station, 3, 3, s.slot.round⟩] }) := by
  have hcount : (s.sent.modSlotAt x.slot fun r => { r with state := .owned 0 }).ownedCount = s.ownedCount + 1 :=
    ownedCount_owned (s := s.sent) hst
  have hreport : reportEnd x .sent s.sent
      = passStation .member 3 (raise .slot 1 x.slot 0 1 (s.sent.modSlotAt x.slot fun r => { r with state := .owned 0 })) := by
    rw [reportEnd_sent_claim hkind ha hreq (s := s.sent) hst, reportClaim_third (s := s.sent) hst hc]
    have hone : BitVec.ofNat 32 (s.sent.ownedCount + 1) = 1 := by
      rw [show s.sent.ownedCount = 0 from hnone]
      rfl
    rw [hone]
    have hclaiming : (raise .slot 1 x.slot 0 1 (s.sent.modSlotAt x.slot fun r => { r with state := .owned 0 })).ctl.state = .claiming :=
      hstate
    have hsome : (raise .slot 1 x.slot 0 1 (s.sent.modSlotAt x.slot fun r => { r with state := .owned 0 })).ownedCount ≠ 0 :=
      fun h => absurd (hcount.symm.trans h) (by omega)
    simp only [followOwned, hclaiming, if_neg hsome]
  have hawake : s.ctl.state ≠ .off := by rw [hstate]; decide
  rw [row_of_sent hs hreport fun _ => ⟨hawake, rfl⟩, State.sentWith, State.afterBit, if_neg hawake]
  rfl

/-! ### A slot frame of a MEMBER (R34, R75, R136, R141) -/

theorem reportToSlots_sent_member {x : Transmission} {s : State} {c : Nat} (hkind : x.kind = .slotFrame)
    (hst : (s.slotAt x.slot).state = .owned c) (hstate : s.ctl.state = .member) (t : State) (hslot : t.slot = s.slot)
    (hctl : t.ctl = s.ctl) : reportToSlots x .sent t = t.modSlotAt x.slot fun r => { r with state := .owned 0 } := by
  have hst' : (t.slotAt x.slot).state = .owned c := by rwa [State.slotAt, hslot]
  simp only [reportToSlots, hkind, hst', hctl, hstate, reportOwned]

/-- A state whose answer queue, request list and events waiting are those of a report. -/
def State.reported (answers : List Answer) (list : List RequestRecord) (events : List EventRecord) (s : State) : State :=
  { s with pub := { s.pub with answers := answers }, req := { s.req with list := list }, raised := s.raised ++ events }

/-- Where the report to the slot unit changes a record only, and the report to the lists the lists, their order does not matter (R21). -/
theorem reportEnd_commutes {x : Transmission} {s : State} {g : SlotRecord → SlotRecord} {answers : List Answer}
    {list : List RequestRecord} {events : List EventRecord}
    (hslots : ∀ t : State, t.slot = s.slot → t.ctl = s.ctl → reportToSlots x .sent t = t.modSlotAt x.slot g)
    (hlists : ∀ f, reportToLists x .sent (s.modSlotAt x.slot f) = (s.modSlotAt x.slot f).reported answers list events) :
    reportEnd x .sent s = (s.modSlotAt x.slot g).reported answers list events := by
  have hsame : s.modSlotAt x.slot id = s := by simp [State.modSlotAt, State.modSlot]
  have hfirst := hlists id
  rw [hsame] at hfirst
  rw [reportEnd, hfirst, hslots s rfl rfl, hslots (s.reported answers list events) rfl rfl, hlists]
  exact ite_self _

/-- A request that goes to a station is SENT (R136). -/
theorem requestSent_to {s : State} {before after : List RequestRecord} {r : RequestRecord} (h : s.req.list = before ++ r :: after)
    (hne : ∀ q ∈ before ++ after, q.id ≠ r.id) (hwaiting : r.state = .waiting) (htarget : r.target ≠ 0) :
    requestSent r.id s
      = { s with
          req := { s.req with list := before ++ { r with attempts := r.attempts + 1, state := .sent, wait := 2 } :: after } } := by
  simp only [requestSent, record?_of_split h fun q hq => hne q (List.mem_append_left _ hq), hwaiting, if_true, htarget, if_false]
  rw [modRecord_of_split h hne]
  rw [modRecord_of_split (r := { r with attempts := r.attempts + 1 }) rfl hne]
  rfl

/-- A broadcast ends BROADCAST_SENT (R141). -/
theorem requestSent_broadcast {s : State} {before after : List RequestRecord} {r : RequestRecord} (h : s.req.list = before ++ r :: after)
    (hne : ∀ q ∈ before ++ after, q.id ≠ r.id) (hwaiting : r.state = .waiting) (htarget : r.target = 0)
    (happ : r.origin = .application) :
    requestSent r.id s
      = { s with
          req :=
            { s.req with
              list :=
                before
                  ++ { r with attempts := r.attempts + 1, state := .answered, outcome := some .broadcastSent, content := .nothing }
                    :: after }
          raised := s.raised ++ [⟨.request, 9, r.tag, 0, 0, s.slot.round⟩] } := by
  simp only [requestSent, record?_of_split h fun q hq => hne q (List.mem_append_left _ hq), hwaiting, if_true, htarget]
  rw [modRecord_of_split h hne]
  simp only [endRecord]
  rw [closeRecord_of_split (r := { r with attempts := r.attempts + 1 }) rfl hne happ]
  simp [RequestRecord.closed, htarget, RequestOutcome.endState, RequestOutcome.code, Content.eventValue]

end Sys2Proof.Machine

namespace Sys2Proof.Machine

/-! ### A slot frame of a MEMBER, with and without a request -/

theorem timed_reported (s : State) (k : Nat) (f : SlotRecord → SlotRecord) (answers : List Answer) (list : List RequestRecord)
    (events : List EventRecord) :
    ((s.sent.modSlotAt k f).reported answers list events).timed = (s.sentWith k f).reported answers list events := by
  rw [← timed_sent]
  rfl

theorem reported_noEvent (answers : List Answer) (list : List RequestRecord) (s : State) :
    s.reported answers list [] = { s with pub := { s.pub with answers := answers }, req := { s.req with list := list } } := by
  simp [State.reported]

theorem reported_event (answers : List Answer) (list : List RequestRecord) (s : State) (kind : EventKind) (code n d : Nat) (v : Word) :
    s.reported answers list [⟨kind, code, n, d, v, s.slot.round⟩] = raise kind code n d v (s.reported answers list []) := by
  simp [State.reported, raise]

theorem reportToLists_request {x : Transmission} {id : Nat} (hreq : x.request = some id) (s : State) :
    reportToLists x .sent s = requestSent id { s with pub := { s.pub with answers := x.answersLeft s } } := by
  have h := reportToLists_sent (x := { x with request := none }) rfl s
  simp only [reportToLists, hreq] at h ⊢
  rw [h]
  rfl

/-- A sent slot frame whose reports change its record and the lists, and raise nothing. -/
theorem gives_of_slotFrame {s : State} {x : Transmission} (hs : s.sends x) {g : SlotRecord → SlotRecord} {list : List RequestRecord}
    (hslots : ∀ t : State, t.slot = s.slot → t.ctl = s.ctl → reportToSlots x .sent t = t.modSlotAt x.slot g)
    (hlists : ∀ f, reportToLists x .sent (s.sent.modSlotAt x.slot f)
      = (s.sent.modSlotAt x.slot f).reported (x.answersLeft s) list []) :
    Gives (.transmissionSent [] .recessive) s ((s.sentWith x.slot g).reported (x.answersLeft s) list []) := by
  rw [← timed_reported]
  refine gives_of_sent hs (reportEnd_commutes (s := s.sent) hslots hlists) (fun h => ⟨h, rfl⟩) ?_
  rw [reported_noEvent]
  exact hs.settled

theorem reportToLists_noRequest {x : Transmission} (hreq : x.request = none) (s : State) (f : SlotRecord → SlotRecord) :
    reportToLists x .sent (s.sent.modSlotAt x.slot f) = (s.sent.modSlotAt x.slot f).reported (x.answersLeft s) s.req.list [] := by
  rw [reportToLists_sent hreq, reported_noEvent]
  rfl

theorem reportToLists_to {s : State} {x : Transmission} {before after : List RequestRecord} {r : RequestRecord}
    (h : s.req.list = before ++ r :: after) (hreq : x.request = some r.id) (hne : ∀ q ∈ before ++ after, q.id ≠ r.id)
    (hwaiting : r.state = .waiting) (htarget : r.target ≠ 0) (f : SlotRecord → SlotRecord) :
    reportToLists x .sent (s.sent.modSlotAt x.slot f)
      = (s.sent.modSlotAt x.slot f).reported (x.answersLeft s)
        (before ++ { r with attempts := r.attempts + 1, state := .sent, wait := 2 } :: after) [] := by
  refine (reportToLists_request hreq _).trans ((requestSent_to ?_ hne hwaiting htarget).trans ?_)
  · exact h
  · rw [reported_noEvent]
    rfl

theorem reportToLists_broadcast {s : State} {x : Transmission} {before after : List RequestRecord} {r : RequestRecord}
    (h : s.req.list = before ++ r :: after) (hreq : x.request = some r.id) (hne : ∀ q ∈ before ++ after, q.id ≠ r.id)
    (hwaiting : r.state = .waiting) (htarget : r.target = 0) (happ : r.origin = .application) (f : SlotRecord → SlotRecord) :
    reportToLists x .sent (s.sent.modSlotAt x.slot f)
      = (s.sent.modSlotAt x.slot f).reported (x.answersLeft s)
        (before
          ++ { r with attempts := r.attempts + 1, state := .answered, outcome := some .broadcastSent, content := .nothing } :: after)
        [⟨.request, 9, r.tag, 0, 0, s.slot.round⟩] := by
  refine (reportToLists_request hreq _).trans ((requestSent_broadcast ?_ hne hwaiting htarget happ).trans ?_)
  · exact h
  · rfl

/-- A broadcast ends BROADCAST_SENT, with its event (R141). -/
theorem sentSlot_broadcast {s : State} {x : Transmission} (hs : s.sends x) {c : Nat} (hkind : x.kind = .slotFrame)
    (hst : (s.slotAt x.slot).state = .owned c) (hstate : s.ctl.state = .member) {before after : List RequestRecord} {r : RequestRecord}
    (h : s.req.list = before ++ r :: after) (hreq : x.request = some r.id) (hne : ∀ q ∈ before ++ after, q.id ≠ r.id)
    (hwaiting : r.state = .waiting) (htarget : r.target = 0) (happ : r.origin = .application) :
    Gives (.transmissionSent [] .recessive) s
      (((s.sentWith x.slot fun r => { r with state := .owned 0 }).reported (x.answersLeft s)
        (before
          ++ { r with attempts := r.attempts + 1, state := .answered, outcome := some .broadcastSent, content := .nothing } :: after)
        []).withEvent .request 9 r.tag 0 0) := by
  rw [← timed_reported]
  refine gives_of_sent_event hs ?_ (fun h => ⟨h, rfl⟩) ?_
  · rw [← reported_event]
    exact reportEnd_commutes (s := s.sent) (reportToSlots_sent_member (s := s.sent) hkind hst hstate)
      (reportToLists_broadcast h hreq hne hwaiting htarget happ)
  · rw [reported_noEvent]
    exact hs.settled

/-! ### A slot frame in LEAVING (R36, R51, R52) -/

/-- A record freed by its own station's leaving. -/
def freeRecord (r : SlotRecord) : SlotRecord := { r with state := .free, ownerHeard := false }

theorem reportToSlots_leaving {x : Transmission} {s : State} {c : Nat} {e : TxEnd} (hkind : x.kind = .slotFrame)
    (hst : (s.slotAt x.slot).state = .owned c) (hstate : s.ctl.state = .leaving) (t : State) (hslot : t.slot = s.slot)
    (hctl : t.ctl = s.ctl) :
    reportToSlots x e t = if s.ownedCount - 1 = 0 then enterOff 6 (t.modSlotAt x.slot freeRecord) else t.modSlotAt x.slot freeRecord := by
  have hst' : (t.slotAt x.slot).state = .owned c := by rwa [State.slotAt, hslot]
  have hcount : (t.modSlotAt x.slot freeRecord).ownedCount = s.ownedCount - 1 := by
    have hk := lt_of_slotAt_ne (s := s) (k := x.slot) (by rw [hst]; simp)
    rw [State.slotAt, List.getD_eq_getElem _ _ hk] at hst
    rw [State.ownedCount, modSlotAt_slot, hslot]
    exact countP_modify_lt hk (by rw [hst]; rfl) rfl
  have hfree : becomeFree x.slot t = t.modSlotAt x.slot freeRecord := becomeFree_of_noOwner (by rw [hst']; rfl)
  have hstate' : (t.modSlotAt x.slot freeRecord).ctl.state = .leaving := by rw [modSlotAt_ctl, hctl, hstate]
  simp only [reportToSlots, hkind, hst', hctl, hstate, hfree, followOwned, hstate', hcount]

/-- The last record freed in LEAVING takes the station to OFF, with the answer queue as one of the two orders of the reports left it. -/
theorem reportEnd_leaves {x : Transmission} {s : State} {c : Nat} (hkind : x.kind = .slotFrame)
    (hst : (s.slotAt x.slot).state = .owned c) (hstate : s.ctl.state = .leaving) (hreq : x.request = none) (hcount : s.ownedCount = 1) :
    ∃ answers, reportEnd x .sent s
      = enterOff 6 ({ s with pub := { s.pub with answers := answers } }.modSlotAt x.slot freeRecord) := by
  have hslots := reportToSlots_leaving (e := .sent) hkind hst hstate
  simp only [hcount, Nat.sub_self, if_true] at hslots
  unfold reportEnd
  split
  · refine ⟨s.pub.answers, ?_⟩
    rw [hslots s rfl rfl, reportToLists_sent hreq]
    have hnone : (enterOff 6 (s.modSlotAt x.slot freeRecord)).pub.answers = [] := rfl
    have hleft : x.answersLeft (enterOff 6 (s.modSlotAt x.slot freeRecord)) = [] := by
      unfold Transmission.answersLeft
      split <;> simp [hnone]
    rw [hleft]
    rfl
  · refine ⟨x.answersLeft s, ?_⟩
    rw [reportToLists_sent hreq]
    exact hslots _ rfl rfl

/-- What entering OFF does does not depend on the records' states, the slot time, or the answers held. -/
theorem State.entersOff.of_slot_pub {s t : State} {es : List EventRecord} {a : SlotUnit} {b : Publication} (h : s.entersOff t es)
    (hround : a.round = s.slot.round)
    (ha : ({ a with timer := 0, counter := 0, starved := false, map := a.map.map fun _ => ⟨.free, false, false, false⟩ } : SlotUnit)
      = { s.slot with timer := 0, counter := 0, starved := false, map := s.slot.map.map fun _ => ⟨.free, false, false, false⟩ })
    (hb : ({ b with answers := [] } : Publication) = { s.pub with answers := [] }) :
    ({ s with slot := a, pub := b } : State).entersOff t es := by
  obtain ⟨hctl, hslot, hpub, hpeers, hentries, hentry, hreq, htag, hlate, hline, htrig, hdue, hrest, hends⟩ := h
  rw [← hround] at hreq hends
  exact ⟨hctl, hslot.trans ha.symm, hpub.trans hb.symm, hpeers, hentries, hentry, hreq, htag, hlate, hline, htrig, hdue, hrest, hends⟩

/-- Ending the step enters the events in an order that leaves those of each kind as they were. -/
theorem State.entersOff.finish {s t : State} {es : List EventRecord} (h : s.entersOff t es) (picks : List Nat) :
    s.entersOff (finish t) (interleave es.length picks es) := by
  obtain ⟨hctl, hslot, hpub, hpeers, hentries, hentry, hreq, htag, hlate, hline, htrig, hdue, hrest, hends⟩ := h
  have hunit : ∀ u, (Machine.finish t).unit u = t.unit u := fun u => by rw [finish_frame]; cases u <;> rfl
  have hmem : ∀ e, e ∈ es → e ∈ interleave es.length picks es := fun e he => (interleave_perm _ picks es le_rfl).mem_iff.mpr he
  simp only [State.entersOff, hunit, interleave_ofKind (k := .entry) (by decide), interleave_ofKind (k := .request) (by decide)]
  rw [finish_frame]
  refine ⟨hctl, hslot, hpub, hpeers, hentries, hentry, hreq, htag, hlate, hline, htrig, hdue, hrest, ?_⟩
  intro hcalled hperiods hquiet u ho
  obtain ⟨hcollecting, hidle⟩ := hends hcalled hperiods hquiet u ho
  exact ⟨fun hu hp hn => (hcollecting hu hp hn).imp (And.imp_right (hmem _)) (And.imp_right (hmem _)), hidle⟩

theorem enterOff_host (cause : Nat) (s : State) : (enterOff cause s).host = s.host :=
  (congrArg State.host (imageAndRequestsOff_outsidePeers (turnedOff cause s)) :).trans (turnedOff_outside cause s).2.2.2.2.2.2.2

/-- With no watch, no record of the request list and no collection in course, entering OFF raises STATION STATE and nothing else. -/
theorem enterOff_raised_alone {s : State} (cause : Nat) (hwatch : ∀ e ∈ s.image, e.watch = none) (hlist : s.req.list = [])
    (hfree : s.collectorFree) (hcalled : s.called = 0) (hdue : s.due.periods = false) :
    (enterOff cause s).raised = s.raised ++ [⟨.station, 1, s.ctl.config.station, cause, 0, s.slot.round⟩] := by
  obtain ⟨as, bs, hraised, -, -, -, hnone, hbs⟩ := enterOff_raised cause s
  obtain ⟨-, -, hreq, -, -, -, himage, -⟩ := turnedOff_outside cause s
  have hunit := turnedOff_unit hdue cause
  have hfree' : (turnedOff cause s).collectorFree :=
    collectorFree_of (u := .a) ((hunit .a).1 ▸ hfree.1) ((hunit .b).1 ▸ hfree.2)
  rw [imageAndRequestsOff_raised_of_free hfree' (fun e he _ => .inr (hwatch e (himage ▸ he))) ((hunit .a).2.trans hcalled)
    (hreq ▸ hlist)] at hbs
  rw [hraised, hnone hdue, List.self_eq_append_right.mp hbs]
  simp

theorem timed_of_off {t : State} (h : t.ctl.state = .off) : t.timed = t := by
  simp only [State.timed, h, if_true]
  rfl

/-- The last slot frame sent in LEAVING takes the station to OFF with LEAVE_DONE. -/
theorem sentSlot_leaves {s : State} {x : Transmission} {c : Nat} (hs : s.sends x) (hkind : x.kind = .slotFrame)
    (hst : (s.slotAt x.slot).state = .owned c) (hstate : s.ctl.state = .leaving) (hreq : x.request = none) (hcount : s.ownedCount = 1) :
    Leads (.transmissionSent [] .recessive) s fun t =>
      t.ctl.state = .off ∧ t.ctl.cond.leaving = false ∧ t.ownedCount = 0 ∧ t.line.tx = none
        ∧ s.takesEvents t (fun es =>
            { s.afterBit .recessive with line := s.sentLine }.entersOff t es
              ∧ ofKind .station es = [⟨.station, 1, s.ctl.config.station, 6, 0, s.slot.round⟩])
        ∧ t.line.sequence = s.line.sequence + 1 ∧ t.pub.answers = []
        ∧ ((∀ e ∈ s.image, e.watch = none) → s.req.list = [] → s.collectorFree → s.host.events.length < 32 →
            t.host.events = s.host.events ++ [⟨.station, 1, s.ctl.config.station, 6, 0, s.slot.round⟩]) := by
  obtain ⟨answers, hreport⟩ := reportEnd_leaves (s := s.sent) hkind hst hstate hreq hcount
  set w := ({ s.sent with pub := { s.sent.pub with answers := answers } } : State).modSlotAt x.slot freeRecord with hw
  have hoff : (enterOff 6 w).ctl.state = .off := by rw [enterOff_ctl]
  have hrow := row_of_sent hs hreport fun h => absurd hoff h
  rw [timed_of_off hoff] at hrow
  have hnone : w.raised = [] := hs.settled
  have hdue : s.due = Due.none ∧ s.called = 0 := by
    have h := hs.mid.1.2.2.1
    simp only [State.hasDue, Bool.or_eq_false_iff] at h
    exact ⟨by simpa using h.1.1.1.1, by simpa using h.1.1.1.2⟩
  refine ⟨_, hrow, ?_⟩
  obtain ⟨es, hes, henters, hstation⟩ := enterOff_entersOff 6 w
  rw [hnone, List.nil_append] at hes
  have hframe := enterOff_lineFrame 6 w
  have hblock : ∀ e ∈ es, e.kind = .station → e.block = 2 := by
    intro e he hk
    have hmem : e ∈ ofKind .station es := List.mem_filter.mpr ⟨he, by simp [hk]⟩
    rw [hstation, List.mem_singleton] at hmem
    rw [hmem]
    rfl
  refine ⟨?_, ?_, ?_, ?_, ⟨interleave es.length (enterOff 6 w).order.eventPicks es, ?_, ?_, ?_⟩, ?_, ?_, ?_⟩
  · rw [finish_frame]
    exact hoff
  · rw [finish_frame]
    exact congrArg (·.cond.leaving) (enterOff_ctl 6 w)
  · rw [finish_frame]
    show (enterOff 6 w).ownedCount = 0
    rw [State.ownedCount, enterOff_slot]
    simp [slotOff, List.countP_eq_zero, SlotRecord.reset, SlotState.isOwned]
  · rw [finish_line]
    exact hframe.none rfl
  · rw [finish_host, enterOff_host, hes]
    rfl
  · rw [afterBit_eq]
    refine State.entersOff.of_slot_pub (s := w) (henters.finish _) rfl ?_ rfl
    simp [w, State.sent, pastBeginning, State.modUnit]
  · rw [interleave_stationEvents _ _ hblock, hstation]
    rfl
  · rw [finish_line, hframe.same]
    rfl
  · rw [finish_frame]
    rfl
  · intro hwatch hlist hfree hroom
    have halone := enterOff_raised_alone (s := w) 6 hwatch hlist hfree hdue.2 (by rw [show w.due = s.due from rfl, hdue.1]; rfl)
    rw [hnone, List.nil_append] at halone
    rw [finish_one halone, enterOff_host]
    exact congrArg (·.events) (enterEvent_of_room (h := s.host) hroom _)

/-- Settles O33. -/
theorem sentFramesAreReported : Obligations.SentFramesAreReported := by
  intro s x k hmid hhold htx hphase hlast hgoing line passed slot answers
  have hs : s.sends x := ⟨hmid, hhold, htx, ⟨k, hphase, hlast⟩, hgoing⟩
  have hline : line = s.sentLine := by
    cases h : s.heard .recessive <;> simp only [line, State.sentLine, h, Receiver.markOwn]
  have hanswers : answers = x.answersLeft s := by
    cases h : x.answer <;> simp only [answers, Transmission.answersLeft, h]
  rw [hline, hanswers]
  refine ⟨fun c hkind ha hreq hst => ⟨fun hc => ?_, fun hc hstate _ => ?_, fun hc hstate hnone hroom => ?_⟩,
    fun c hkind hstate hst => ?_, fun c hkind hstate hst hreq => ⟨fun hcount => ?_, fun hcount => ?_⟩⟩
  · exact sentClaim_counts hs hkind ha hreq hst hc
  · exact sentClaim_owns hs hkind ha hreq hst hc hstate
  · refine ⟨_, sentClaim_joins hs hkind ha hreq hst hc hstate hnone, ?_⟩
    let owned : EventRecord := ⟨.slot, 1, x.slot, 0, 1, s.slot.round⟩
    let joined : EventRecord := ⟨.station, 1, s.ctl.config.station, 3, 3, s.slot.round⟩
    have hraised : s.raised ++ [owned] ++ [joined] = [owned, joined] := by rw [hs.settled]; rfl
    have hevents := finish_two (s := { s.sentWith x.slot fun r => { r with state := .owned 0 } with
      ctl := { s.ctl with state := .member }
      raised := s.raised ++ [owned] ++ [joined] }) hraised hroom
    dsimp only
    rw [finish_frame]
    exact ⟨rfl, rfl, rfl, hevents, rfl, rfl, rfl, rfl⟩
  · have hslots := reportToSlots_sent_member (s := s.sent) hkind hst hstate
    refine ⟨fun hreq => ?_, fun before after r hlist hreq hwaiting hne => ⟨fun htarget => ?_, fun htarget happ => ?_⟩⟩
    · have h := gives_of_slotFrame hs hslots (reportToLists_noRequest hreq s)
      rwa [reported_noEvent] at h
    · have h := gives_of_slotFrame hs hslots (reportToLists_to hlist hreq hne hwaiting htarget)
      rwa [reported_noEvent] at h
    · have h := sentSlot_broadcast hs hkind hst hstate hlist hreq hne hwaiting htarget happ
      rwa [reported_noEvent] at h
  · have hslots := reportToSlots_leaving (s := s.sent) (e := .sent) hkind hst hstate
    have hsome : s.sent.ownedCount - 1 ≠ 0 := by
      show s.ownedCount - 1 ≠ 0
      omega
    simp only [hsome, if_false] at hslots
    have h := gives_of_slotFrame hs hslots (reportToLists_noRequest hreq s)
    rwa [reported_noEvent] at h
  · exact sentSlot_leaves hs hkind hst hstate hreq hcount

end Sys2Proof.Machine

namespace Sys2Proof.Machine

/-! ## What the blocks read of a state

The blocks take an arrival in an order that the free choices give. That the order does not matter to a block is shown by looking at a state
without what the block does not read: an operation that commutes with `State.seen` reads nothing of what is not seen, and changes it in no way
that could be seen. -/

/-- Whether an event is looked at: the events of peer unit, slot unit and station control always, those of the image unit and the collector
where the image table is, those of the request unit where the request list is. -/
def EventRecord.seen (image requests : Bool) (e : EventRecord) : Bool :=
  match e.kind with
  | .peer => true
  | .slot => true
  | .station => true
  | .entry => image
  | .watch => image
  | .snapshot => image
  | .request => requests
  | .peerWrite => false

/-- A state looked at without publication unit and slot time, and with image table, snapshot units and request unit by choice. -/
def State.seen (image requests : Bool) (s : State) : State :=
  { s with
    slot := { s.slot with counter := 0, timer := 0 }
    pub := Publication.reset
    serial := 0
    image := if image then s.image else []
    unitA := if image then s.unitA else SnapshotUnit.reset
    unitB := if image then s.unitB else SnapshotUnit.reset
    called := if image then s.called else 0
    began := if image then s.began else false
    req := if requests then s.req else RequestUnit.reset
    raised := s.raised.filter (EventRecord.seen image requests) }

/-- An operation that acts alike on what is seen and on what is there. -/
def Seen (image requests : Bool) (g : State → State) : Prop := ∀ s, (g s).seen image requests = g (s.seen image requests)

variable {i q : Bool}

theorem Seen.comp {f g : State → State} (hf : Seen i q f) (hg : Seen i q g) : Seen i q fun s => f (g s) := fun s => by
  rw [hf, hg]

theorem seen_id : Seen i q fun s => s := fun _ => rfl

theorem Seen.ite {c : State → Prop} [∀ s, Decidable (c s)] {f g : State → State} (hc : ∀ s, c (s.seen i q) ↔ c s) (hf : Seen i q f)
    (hg : Seen i q g) : Seen i q fun s => if c s then f s else g s := fun s => by
  by_cases h : c s
  · simp only [h, (hc s).mpr h, if_true, hf s]
  · simp only [h, mt (hc s).mp h, if_false, hg s]

theorem raise_seen_of {k : EventKind} (c n d : Nat) (v : Word) (h : ∀ w, EventRecord.seen i q ⟨k, c, n, d, v, w⟩ = true) :
    Seen i q (raise k c n d v) := fun s => by
  simp only [raise, State.seen, List.filter_append, List.filter_cons, h, if_true, List.filter_nil]

theorem modPeer_seen (n : Nat) (f : PeerRecord → PeerRecord) : Seen i q (State.modPeer n f) := fun s => by
  simp only [State.modPeer]
  show State.seen i q (if n = 0 ∨ n = s.ctl.config.station then _ else _) = if n = 0 ∨ n = s.ctl.config.station then _ else _
  split <;> rfl

theorem modSlotAt_seen (k : Nat) (f : SlotRecord → SlotRecord) : Seen i q (State.modSlotAt k f) := fun _ => rfl

/-- An operation that leaves what is seen leaves it. -/
theorem Seen.of_absorbs {g : State → State} (h : ∀ s, (g s).seen i q = s.seen i q) (h' : ∀ s : State, g (s.seen i q) = s.seen i q) :
    Seen i q g := fun s => by rw [h, h']

end Sys2Proof.Machine

namespace Sys2Proof.Machine

/-! ## The collector reads the units, the image table and the round (R148 to R157) -/

section
variable {q : Bool}

theorem unit_seen (u : UnitId) (s : State) : (s.seen true q).unit u = s.unit u := by cases u <;> rfl

theorem modUnit_seen (u : UnitId) (f : SnapshotUnit → SnapshotUnit) : Seen true q (State.modUnit u f) := fun s => by cases u <;> rfl

theorem startCollection_seen (u : UnitId) : Seen true q (startCollection u) := fun s => by cases u <;> rfl

theorem raiseSnapshot_seen (u : UnitId) : Seen true q (raiseSnapshot u) := fun s => by
  rw [raiseSnapshot, raise_seen_of _ _ _ _ fun _ => rfl, raiseSnapshot, unit_seen]

theorem closeCollection_seen (u : UnitId) : Seen true q (closeCollection u) := (raiseSnapshot_seen u).comp (modUnit_seen u _)

theorem endCollection_seen (u : UnitId) : Seen true q (endCollection u) := fun s => by
  simp only [endCollection, ← closeCollection_seen u s]
  generalize closeCollection u s = t
  rw [← startCollection_seen u.other t, unit_seen, unit_seen]
  split
  · split
    · exact closeCollection_seen u.other _
    · rfl
  · rfl

theorem judgeEnd_seen (u : UnitId) : Seen true q (judgeEnd u) := fun s => by
  unfold judgeEnd
  rw [unit_seen]
  split
  · exact endCollection_seen u s
  · rfl

theorem dropTrigger_seen (u : UnitId) : Seen true q (dropTrigger u) := modUnit_seen u _

theorem actTrigger_seen (u : UnitId) : Seen true q (actTrigger u) := fun s => by
  unfold actTrigger
  rw [unit_seen, unit_seen]
  split
  case h_3 =>
    split
    · split
      · exact modUnit_seen u _ s
      · exact dropTrigger_seen u s
    · exact startCollection_seen u s
  case h_1 | h_2 => rfl
  all_goals exact dropTrigger_seen u s

theorem answerCalls_seen (n : Nat) : Seen true q (answerCalls n) := by
  induction n with
  | zero => exact fun _ => rfl
  | succ n ih => exact ih.comp ((judgeEnd_seen .b).comp (actTrigger_seen .b))

theorem answerCall_seen : Seen true q answerCall := fun s => answerCalls_seen s.called { s with called := 0 }

theorem triggerA_seen : Seen true q triggerA := fun s =>
  (answerCall_seen _).trans (congrArg answerCall (actTrigger_seen .a { s with began := s.began || s.beginsA }))

theorem triggerB_seen : Seen true q triggerB := fun s => by
  have drop := dropTrigger_seen (q := q) .b s
  have act := actTrigger_seen (q := q) .b s
  have hcalled : (s.seen true q).called = s.called := rfl
  have hbegan : (s.seen true q).began = s.began := rfl
  have ha : (s.seen true q).unitA = s.unitA := rfl
  have hb : (s.seen true q).unitB = s.unitB := rfl
  unfold triggerB
  rw [hcalled, hbegan, ha, hb]
  split
  · rfl
  · split
    · rfl
    · split
      · exact drop
      · exact act

theorem giveTriggers_seen (a b : Bool) : Seen true q (giveTriggers a b) := by
  have onlyIf : ∀ (c : Bool) {f : State → State}, Seen true q f → Seen true q fun s => if c then f s else s := by
    intro c f hf
    cases c
    · exact fun _ => rfl
    · exact hf
  exact (onlyIf b (judgeEnd_seen .b)).comp ((onlyIf a (judgeEnd_seen .a)).comp
    ((onlyIf b triggerB_seen).comp (onlyIf a triggerA_seen)))

theorem captureValue_seen (i : Nat) (v : Word) : Seen true q (captureValue i v) := fun s => by
  have hcollecting : (s.seen true q).collecting? = s.collecting? := rfl
  unfold captureValue
  rw [hcollecting]
  split
  · rfl
  · next u _ =>
    rw [unit_seen]
    split
    · rfl
    · rw [judgeEnd_seen, modUnit_seen]
      rfl

theorem missEntry_seen (i : Nat) : Seen true q (missEntry i) := fun s => by
  have hcollecting : (s.seen true q).collecting? = s.collecting? := rfl
  unfold missEntry
  rw [hcollecting]
  split
  · rfl
  · rw [judgeEnd_seen, modUnit_seen]
    rfl

/-! ## The image unit reads the image table, the peer table and the round (R99 to R121) -/

theorem entry_seen (i : Nat) (s : State) : (s.seen true q).entry i = s.entry i := rfl

theorem modEntry_seen (i : Nat) (f : ImageEntry → ImageEntry) : Seen true q (State.modEntry i f) := fun _ => rfl

theorem evaluateWatch_seen (i : Nat) (f : Format) : Seen true q (evaluateWatch i f) := fun s => by
  unfold evaluateWatch
  rw [entry_seen]
  split
  · rfl
  · dsimp only
    split
    · rw [giveTriggers_seen, raise_seen_of _ _ _ _ fun _ => rfl]
      rfl
    · rfl

theorem reportBoth_seen {f g : State → State} (hf : Seen true q f) (hg : Seen true q g) (i : Nat) : Seen true q (reportBoth i f g) :=
  fun s => by
    have horder : (s.seen true q).order = s.order := rfl
    unfold reportBoth
    rw [horder]
    split
    · exact hg.comp hf s
    · exact hf.comp hg s

theorem reportSubstitution_seen (i : Nat) (e : ImageEntry) : Seen true q (reportSubstitution i e) := by
  unfold reportSubstitution
  cases e.layout with
  | none => exact seen_id
  | some l => exact Seen.ite (fun _ => Iff.rfl) (evaluateWatch_seen i l.format) seen_id

/-- The ENTRY event of a passage, when it raises one (R115). -/
def announce (event : Option Nat) (i : Nat) (e : ImageEntry) (s : State) : State :=
  match event with
  | some code => raise .entry code i e.state.code (s.entry i).value s
  | none => s

theorem passEntry_eq (i : Nat) (st : EntryState) (event : Option Nat) (s : State) :
    passEntry i st event s
      = reportBoth i (reportSubstitution i (s.entry i)) (fun t => if st.unserved then missEntry i t else t)
        (announce event i (s.entry i) (s.modEntry i (·.pass st))) := by
  cases event <;> rfl

theorem announce_seen (event : Option Nat) (i : Nat) (e : ImageEntry) : Seen true q (announce event i e) := fun s => by
  cases event with
  | none => rfl
  | some code => exact raise_seen_of _ _ _ _ (fun _ => rfl) s

theorem passEntry_seen (i : Nat) (st : EntryState) (event : Option Nat) : Seen true q (passEntry i st event) := fun s => by
  have hmiss : Seen true q fun s => if st.unserved then missEntry i s else s :=
    Seen.ite (fun _ => Iff.rfl) (missEntry_seen i) seen_id
  rw [passEntry_eq, passEntry_eq, reportBoth_seen (reportSubstitution_seen i _) hmiss, announce_seen, modEntry_seen, entry_seen]

theorem forEntries_seen {p : ImageEntry → Bool} {act : Nat → State → State} (h : ∀ i, Seen true q (act i)) :
    Seen true q (forEntries p act) := by
  have fold : ∀ (is : List Nat) (s : State), (is.foldl (fun s i => if p (s.entry i) then act i s else s) s).seen true q
      = is.foldl (fun s i => if p (s.entry i) then act i s else s) (s.seen true q) := by
    intro is
    induction is with
    | nil => exact fun _ => rfl
    | cons i is ih =>
      intro s
      rw [List.foldl_cons, List.foldl_cons, ih, entry_seen]
      split
      · rw [h i s]
      · rfl
  exact fun s => fold (List.range s.image.length) s

theorem resolveEntry_seen (i : Nat) : Seen true q (resolveEntry i) := fun s => by
  have hpeer : ∀ n, (s.seen true q).peer n = s.peer n := fun _ => rfl
  simp only [resolveEntry, entry_seen, hpeer]
  split
  · split
    · exact passEntry_seen i _ _ s
    · split
      · exact passEntry_seen i _ _ s
      · split
        · rfl
        · exact passEntry_seen i _ _ s
  · rfl

theorem takeValue_seen (i : Nat) (v : Word) (f : Format) : Seen true q (takeValue i v f) := fun s => by
  simp only [takeValue]
  rw [reportBoth_seen (evaluateWatch_seen i f) (captureValue_seen i v)]
  by_cases h : (s.entry i).state = .fresh
  · simp only [entry_seen, h, if_true]
    rfl
  · simp only [entry_seen, h, if_false]
    rw [raise_seen_of _ _ _ _ fun _ => rfl]
    rfl

theorem valueArrival_seen (f : Frame) (i : Nat) : Seen true q (valueArrival f i) := fun s => by
  unfold valueArrival
  split
  · by_cases h : (s.entry i).state = .stale
    · simp only [entry_seen, h, if_true]
    · simp only [entry_seen, h, if_false]
      exact passEntry_seen i _ _ s
  · rw [entry_seen]
    split
    · exact takeValue_seen i _ _ s
    · rfl

end

/-! ### With or without the image table -/

section
variable {i q : Bool}

/-- The events of the image unit and the collector. -/
def EventRecord.ofImage (e : EventRecord) : Prop := e.kind = .entry ∨ e.kind = .watch ∨ e.kind = .snapshot

theorem filter_of_raises {p : EventRecord → Prop} {s t : State} (h : Raises p s t) (hp : ∀ e, p e → e.seen i q = false) :
    t.raised.filter (EventRecord.seen i q) = s.raised.filter (EventRecord.seen i q) := by
  obtain ⟨es, hes, hall⟩ := h
  have hnone : es.filter (EventRecord.seen i q) = [] := List.filter_eq_nil_iff.mpr fun e he => by simp [hp e (hall e he)]
  rw [hes, List.filter_append, hnone, List.append_nil]

/-- Not looking at the image table, one sees nothing of what the image unit does. -/
theorem seen_of_outsideImage {s t : State} (h : t.outsideImage = s.outsideImage) (hr : Raises EventRecord.ofImage s t) :
    t.seen false q = s.seen false q := by
  have hraised := filter_of_raises (i := false) (q := q) hr fun e he => by
    rcases he with he | he | he <;> simp [EventRecord.seen, he]
  have hseen : ∀ u : State, u.seen false q
      = { u.outsideImage.seen false q with raised := u.raised.filter (EventRecord.seen false q) } := fun u => by
    cases q <;> rfl
  rw [hseen t, hseen s, h, hraised]

theorem forEntries_raises {p : ImageEntry → Bool} {act : Nat → State → State} {r : EventRecord → Prop}
    (h : ∀ i s, Raises r s (act i s)) (s : State) : Raises r s (forEntries p act s) := by
  refine foldl_keeps (P := Raises r s) (fun t i ht => ?_) _ (.of_eq rfl)
  split
  · exact ht.trans (h i t)
  · exact ht

/-- What the image unit does entry by entry, seen with or without the image table. -/
theorem forEntries_seen_any {p : ImageEntry → Bool} {act : Nat → State → State} (h : ∀ i, Seen true q (act i))
    (hframe : ∀ i s, (act i s).outsideImage = s.outsideImage) (hr : ∀ i s, Raises EventRecord.ofImage s (act i s)) :
    Seen i q (forEntries p act) := by
  cases i with
  | true => exact forEntries_seen h
  | false =>
    exact .of_absorbs (fun s => seen_of_outsideImage (forEntries_outsideImage p hframe s) (forEntries_raises hr s)) fun _ => rfl

theorem evaluateWatch_ofImage (i : Nat) (f : Format) (s : State) : Raises EventRecord.ofImage s (evaluateWatch i f s) :=
  (evaluateWatch_raises i f s).mono fun _ => .inr

theorem captureValue_moves (i : Nat) (v : Word) (s : State) : Moves s (captureValue i v s) := by
  unfold captureValue
  split
  · exact .refl s
  · split
    · exact .refl s
    · refine (Move.decide _ _ rfl fun p hp hpending => ?_).moves.trans (judgeEnd_moves _ _)
      obtain ⟨q, hq, rfl⟩ := List.mem_map.mp hp
      by_cases hi : q.entry = i ∧ q.status = .pending
      · rw [if_pos hi] at hpending
        cases hpending
      · rwa [if_neg hi]

theorem Moves.ofImage {s t : State} (h : Moves s t) : Raises EventRecord.ofImage s t := h.raises.mono fun _ h => .inr (.inr h)

theorem passEntry_ofImage (i : Nat) (st : EntryState) (event : Option Nat) (s : State) :
    Raises EventRecord.ofImage s (passEntry i st event s) := by
  rw [passEntry_eq]
  refine reportBoth_keeps (P := Raises EventRecord.ofImage s) (fun t ht => ?_) (fun t ht => ?_) i ?_
  · rcases reportSubstitution_cases i (s.entry i) t with h | ⟨l, -, -, -, h⟩ <;> rw [h]
    · exact ht
    · exact ht.trans (evaluateWatch_ofImage ..)
  · split
    · exact ht.trans (missEntry_moves i t).ofImage
    · exact ht
  · cases event with
    | none => exact .of_eq rfl
    | some code => exact raise_raises (s := s.modEntry i (·.pass st)) (.inl rfl)

theorem resolveEntry_ofImage (i : Nat) (s : State) : Raises EventRecord.ofImage s (resolveEntry i s) := by
  simp only [resolveEntry]
  split
  · split
    · exact passEntry_ofImage ..
    · split
      · exact passEntry_ofImage ..
      · split
        · exact .of_eq rfl
        · exact passEntry_ofImage ..
  · exact .of_eq rfl

theorem takeValue_ofImage (i : Nat) (v : Word) (f : Format) (s : State) : Raises EventRecord.ofImage s (takeValue i v f s) := by
  refine reportBoth_keeps (P := Raises EventRecord.ofImage s) (fun t ht => ht.trans (evaluateWatch_ofImage ..))
    (fun t ht => ht.trans (captureValue_moves i v t).ofImage) i ?_
  split
  · exact .of_eq rfl
  · exact raise_raises (s := s.modEntry i _) (.inl rfl)

theorem valueArrival_ofImage (f : Frame) (i : Nat) (s : State) : Raises EventRecord.ofImage s (valueArrival f i s) := by
  unfold valueArrival
  split
  · split
    · exact .of_eq rfl
    · exact passEntry_ofImage ..
  · split
    · exact takeValue_ofImage ..
    · exact .of_eq rfl

theorem valueArrival_outsideImage (f : Frame) (i : Nat) (s : State) : (valueArrival f i s).outsideImage = s.outsideImage := by
  unfold valueArrival takeValue
  split
  · split
    · rfl
    · exact passEntry_outsideImage ..
  · split
    · rw [reportBoth_outsideImage (fun s => by simp) (fun s => by simp)]
      split <;> rfl
    · rfl

theorem imageAbsent_seen (n : Nat) : Seen i q (imageAbsent n) :=
  forEntries_seen_any (fun i => passEntry_seen i _ _) (fun i s => passEntry_outsideImage i _ _ s) fun i s => passEntry_ofImage i _ _ s

theorem imageCleared_seen (n : Nat) : Seen i q (imageCleared n) :=
  forEntries_seen_any (fun i => passEntry_seen i _ _) (fun i s => passEntry_outsideImage i _ _ s) fun i s => passEntry_ofImage i _ _ s

theorem imageKnown_seen (n : Nat) : Seen i q (imageKnown n) :=
  forEntries_seen_any resolveEntry_seen resolveEntry_outsideImage resolveEntry_ofImage

theorem imageRetried_seen (n : Nat) : Seen i q (imageRetried n) :=
  forEntries_seen_any (fun i => (resolveEntry_seen i).comp (passEntry_seen i _ _)) (fun i s => by simp)
    fun i s => (passEntry_ofImage i _ _ s).trans (resolveEntry_ofImage i _)

theorem imagePresent_seen (n : Nat) : Seen i q (imagePresent n) := by
  refine forEntries_seen_any (fun i => ?_) (fun i s => ?_) fun i s => ?_
  · exact (resolveEntry_seen i).comp (Seen.ite (fun _ => Iff.rfl) (passEntry_seen i _ _) seen_id)
  · rw [resolveEntry_outsideImage]
    split <;> simp
  · refine Raises.trans ?_ (resolveEntry_ofImage i _)
    split
    · exact passEntry_ofImage ..
    · exact .of_eq rfl

theorem imageArrival_seen (f : Frame) (v : Verdict) : Seen i q (imageArrival f v) :=
  Seen.ite (fun _ => Iff.rfl)
    (forEntries_seen_any (valueArrival_seen f) (valueArrival_outsideImage f) (valueArrival_ofImage f)) seen_id

end

end Sys2Proof.Machine

namespace Sys2Proof.Machine

/-! ## The request unit reads the request list, the station's number and the round (R127 to R147) -/

section
variable {i : Bool}

theorem record?_seen (id : Nat) (s : State) : (s.seen i true).record? id = s.record? id := rfl

theorem modRecord_seen (id : Nat) (f : RequestRecord → RequestRecord) : Seen i true (State.modRecord id f) := fun _ => rfl

theorem closeRecord_seen (id : Nat) (o : RequestOutcome) (c : Content) : Seen i true (closeRecord id o c) := fun s => by
  unfold closeRecord
  rw [record?_seen]
  split
  · rfl
  · dsimp only
    split
    · rw [raise_seen_of _ _ _ _ fun _ => rfl, modRecord_seen]
    · rfl

theorem breakChain_seen (ids failed unsuccessful : List Nat) : Seen i true (breakChain ids failed unsuccessful) := by
  induction ids generalizing failed with
  | nil => exact fun _ => rfl
  | cons id ids ih =>
    intro s
    simp only [breakChain]
    rw [record?_seen]
    split
    · exact ih failed s
    · split
      · rw [ih, closeRecord_seen]
      · exact ih failed s

theorem endRecord_seen (id : Nat) (o : RequestOutcome) (c : Content) : Seen i true (endRecord id o c) := fun s => by
  have hids : ∀ t : State, (t.seen i true).recordIds = t.recordIds := fun _ => rfl
  unfold endRecord
  simp only [← closeRecord_seen id o c s, hids]
  split
  case h_1 | h_2 => rfl
  all_goals exact breakChain_seen _ _ _ _

theorem answerArrival_seen (n : Nat) (a : AnswerSection) : Seen i true (answerArrival n a) := fun s => by
  have hmatching : (s.seen i true).matching? n a = s.matching? n a := rfl
  unfold answerArrival
  rw [hmatching]
  show State.seen i true (if a.requester = s.ctl.config.station then _ else _) = if a.requester = s.ctl.config.station then _ else _
  split
  · split
    · split
      · exact endRecord_seen ..
      · rfl
    · rfl
  · rfl

/-- One application record for a target that is ABSENT, by its number. -/
def recordAbsent (n : Nat) (s : State) (id : Nat) : State :=
  match s.record? id with
  | none => s
  | some r => if r.origin = .application ∧ r.target = n ∧ r.state.live then endRecord id .targetGone .nothing s else s

theorem requestsAbsent_eq (n : Nat) (s : State) : requestsAbsent n s = s.recordIds.foldl (recordAbsent n) s := rfl

theorem recordAbsent_seen (n id : Nat) : Seen i true fun s => recordAbsent n s id := fun s => by
  dsimp only
  unfold recordAbsent
  rw [record?_seen]
  split
  · rfl
  · split
    · exact endRecord_seen ..
    · rfl

/-! ### The events of the request unit -/

theorem breakChain_raises (ids failed unsuccessful : List Nat) (s : State) :
    Raises (·.kind = .request) s (breakChain ids failed unsuccessful s) := by
  induction ids generalizing failed s with
  | nil => exact .of_eq rfl
  | cons id ids ih =>
    simp only [breakChain]
    split
    · exact ih ..
    · split
      · exact (closeRecord_raises ..).trans (ih ..)
      · exact ih ..

theorem endRecord_raises (id : Nat) (o : RequestOutcome) (c : Content) (s : State) : Raises (·.kind = .request) s (endRecord id o c s) := by
  have hclose := closeRecord_raises id o c s
  unfold endRecord
  dsimp only
  split
  case h_1 | h_2 => exact hclose
  all_goals exact hclose.trans (breakChain_raises ..)

theorem requestsAbsent_raises (n : Nat) (s : State) : Raises (·.kind = .request) s (requestsAbsent n s) := by
  rw [requestsAbsent_eq]
  refine foldl_keeps (P := Raises _ s) (fun t id ht => ht.trans ?_) _ (.of_eq rfl)
  unfold recordAbsent
  split
  · exact .of_eq rfl
  · split
    · exact endRecord_raises ..
    · exact .of_eq rfl

/-- Not looking at the request unit, one sees nothing of what it does. -/
theorem seen_of_outsideRequests {s t : State} (h : t.outsideRequests = s.outsideRequests) (hr : Raises (·.kind = .request) s t) :
    t.seen i false = s.seen i false := by
  have hraised := filter_of_raises (i := i) (q := false) hr fun e he => by simp [EventRecord.seen, he]
  have hseen : ∀ u : State, u.seen i false
      = { u.outsideRequests.seen i false with raised := u.raised.filter (EventRecord.seen i false) } := fun u => by
    cases i <;> rfl
  rw [hseen t, hseen s, h, hraised]

theorem answerArrival_unseen (n : Nat) (a : AnswerSection) (s : State) : (answerArrival n a s).seen i false = s.seen i false := by
  unfold answerArrival
  split
  · split
    · split
      · exact seen_of_outsideRequests (endRecord_outsideRequests ..) (endRecord_raises ..)
      · rfl
    · rfl
  · rfl

end

section
variable {i q : Bool}

theorem requestsAbsent_seen (n : Nat) : Seen i q (requestsAbsent n) := by
  cases q with
  | true =>
    have fold : ∀ (ids : List Nat) (s : State), (ids.foldl (recordAbsent n) s).seen i true = ids.foldl (recordAbsent n) (s.seen i true) := by
      intro ids
      induction ids with
      | nil => exact fun _ => rfl
      | cons id ids ih =>
        intro s
        rw [List.foldl_cons, List.foldl_cons, ih]
        exact congrArg (ids.foldl (recordAbsent n)) (recordAbsent_seen n id s)
    exact fun s => fold s.recordIds s
  | false =>
    exact .of_absorbs (fun s => seen_of_outsideRequests (requestsAbsent_outsideRequests n s) (requestsAbsent_raises n s)) fun _ => rfl

theorem removeDiscovery_seen (n : Nat) : Seen i q (removeDiscovery n) := fun s => by cases q <;> rfl

/-! ## The answer side is never looked at -/

theorem applyWrite_unseen (k n code : Nat) (v : Option Word) (s : State) : (applyWrite k n code v s).seen i q = s.seen i q := by
  cases v with
  | none => rfl
  | some v =>
    simp only [applyWrite, writePoint, raise, State.seen, List.filter_append]
    simp [EventRecord.seen, State.modPub]

theorem enterAnswer_unseen (n : Nat) (r : RequestSection) (o : AnswerOutcome) (c : Content) (s : State) :
    (enterAnswer n r o c s).seen i q = s.seen i q := rfl

theorem serveRequest_unseen (n : Nat) (r : RequestSection) (s : State) : (serveRequest n r s).seen i q = s.seen i q := by
  unfold serveRequest
  split
  · exact (enterAnswer_unseen ..).trans (applyWrite_unseen ..)
  · rfl
  · rfl

/-- Not looking at the publication unit, one sees nothing of a request taken (R68 to R74). -/
theorem requestArrival_unseen (n : Nat) (r : RequestSection) (s : State) : (requestArrival n r s).seen i q = s.seen i q := by
  unfold requestArrival
  split
  · rfl
  · split
    · split
      · exact applyWrite_unseen ..
      · rfl
    · split
      · split
        · split
          · rfl
          · split
            · rfl
            · exact serveRequest_unseen ..
        · rfl
      · rfl

/-- The answer side does the same from two states to what they share: publication unit, numbers and its own events. -/
structure Answers (s s' t t' : State) : Prop where
  pub : t'.pub = t.pub
  serial : t'.serial = t.serial
  raised : ∃ es, t.raised = s.raised ++ es ∧ t'.raised = s'.raised ++ es ∧ ∀ e ∈ es, e.kind = .peerWrite

theorem Answers.of_silent {s s' t t' : State} (hpub : t'.pub = t.pub) (hserial : t'.serial = t.serial) (ht : t.raised = s.raised)
    (ht' : t'.raised = s'.raised) : Answers s s' t t' :=
  ⟨hpub, hserial, [], by simp [ht], by simp [ht'], by simp⟩

theorem applyWrite_answers {s s' : State} (hpub : s'.pub = s.pub) (hserial : s'.serial = s.serial) (hround : s'.slot.round = s.slot.round)
    (k n code : Nat) (v : Option Word) : Answers s s' (applyWrite k n code v s) (applyWrite k n code v s') := by
  cases v with
  | none => exact .of_silent hpub hserial rfl rfl
  | some v =>
    refine ⟨?_, hserial, _, rfl, ?_, ?_⟩
    · simp only [applyWrite, writePoint, raise_pub, modPub_pub, hpub]
    · simp only [applyWrite, writePoint, raise_raised, modPub_raised, modPub_slot, hround]
    · simp

theorem enterAnswer_answers {s s' t t' : State} (h : Answers s s' t t') (n : Nat) (r : RequestSection) (o : AnswerOutcome) (c : Content) :
    Answers s s' (enterAnswer n r o c t) (enterAnswer n r o c t') := by
  refine ⟨?_, ?_, h.raised⟩
  · simp only [enterAnswer, takeSerial_pub, modPub_pub, h.pub, h.serial]
  · simp only [enterAnswer, takeSerial_serial, modPub_serial, h.serial]

/-- What the answer side makes of a request depends on its own unit, the station's number, whether the station serves, and the round. -/
theorem requestArrival_answers {s s' : State} (hpub : s'.pub = s.pub) (hserial : s'.serial = s.serial)
    (hround : s'.slot.round = s.slot.round) (hconfig : s'.ctl.config = s.ctl.config)
    (hserves : s'.ctl.state.serves = s.ctl.state.serves) (n : Nat) (r : RequestSection) :
    Answers s s' (requestArrival n r s) (requestArrival n r s') := by
  have count : ∀ f : Publication → Publication, Answers s s' (s.modPub f) (s'.modPub f) := fun f =>
    .of_silent (by simp only [modPub_pub, hpub]) hserial rfl rfl
  have write := applyWrite_answers hpub hserial hround
  have same : Answers s s' s s' := .of_silent hpub hserial rfl rfl
  unfold requestArrival
  rw [hpub, hconfig, hserves]
  split
  · exact count _
  · split
    · split
      · exact write ..
      · exact count _
    · split
      · split
        · split
          · exact same
          · split
            · exact count _
            · unfold serveRequest
              rw [hpub]
              split
              · exact enterAnswer_answers (write ..) ..
              · exact enterAnswer_answers same ..
              · exact enterAnswer_answers same ..
        · exact count _
      · exact same

end

end Sys2Proof.Machine

namespace Sys2Proof.Machine

/-! ## The peer unit and the slot map, with or without the other blocks (R24 to R26, R79 to R94) -/

section
variable {i q : Bool}

theorem peer_seen (n : Nat) (s : State) : (s.seen i q).peer n = s.peer n := rfl

theorem slotAt_seen (k : Nat) (s : State) : (s.seen i q).slotAt k = s.slotAt k := rfl

theorem raise_peer_seen (c n d : Nat) (v : Word) : Seen i q (raise .peer c n d v) := raise_seen_of _ _ _ _ fun _ => rfl

theorem raise_slot_seen (c n d : Nat) (v : Word) : Seen i q (raise .slot c n d v) := raise_seen_of _ _ _ _ fun _ => rfl

theorem overOwn_seen {f : State → State} (n : Nat) (hf : Seen i q f) : Seen i q (overOwn n f) :=
  Seen.ite (fun _ => Iff.rfl) seen_id hf

theorem setFault_seen (n : Nat) (name : FaultName) : Seen i q (setFault n name) := by
  refine overOwn_seen n fun s => ?_
  simp only [peer_seen, ← modPeer_seen n _ s]
  split
  · rfl
  · exact raise_peer_seen ..

theorem becomeAbsent_seen (n : Nat) : Seen i q (becomeAbsent n) := fun s => by
  simp only [becomeAbsent]
  rw [requestsAbsent_seen, imageAbsent_seen, removeDiscovery_seen, raise_peer_seen, modPeer_seen]

theorem becomePresent_seen (n : Nat) : Seen i q (becomePresent n) := fun s => by
  simp only [becomePresent, peer_seen, ← modPeer_seen n _ s]
  rw [imagePresent_seen]
  generalize State.modPeer n _ s = t
  split
  · rw [imageRetried_seen, raise_peer_seen]
  · rw [raise_peer_seen]

theorem loseSlot_seen (n : Nat) : Seen i q (loseSlot n) := by
  refine overOwn_seen n fun s => ?_
  simp only [peer_seen, ← modPeer_seen n _ s]
  split
  · exact becomeAbsent_seen n _
  · rfl

theorem gainSlot_seen (n : Nat) : Seen i q (gainSlot n) := by
  refine overOwn_seen n fun s => ?_
  simp only [peer_seen, ← modPeer_seen n _ s]
  split
  · exact becomePresent_seen n _
  · rfl

theorem changeOwner_seen (before after : Option Nat) : Seen i q (changeOwner before after) := fun s => by
  unfold changeOwner
  split
  · rfl
  · cases before <;> cases after
    · rfl
    · exact gainSlot_seen _ s
    · exact loseSlot_seen _ s
    · exact (gainSlot_seen _).comp (loseSlot_seen _) s

theorem setSlotState_seen (k : Nat) (f : SlotRecord → SlotRecord) : Seen i q (setSlotState k f) := fun s => by
  simp only [setSlotState, slotAt_seen, ← modSlotAt_seen k f s]
  exact changeOwner_seen _ _ _

theorem becomeHeard_seen (k n : Nat) : Seen i q (becomeHeard k n) := fun s => setSlotState_seen k _ s

theorem becomeFree_seen (k : Nat) : Seen i q (becomeFree k) := fun s => setSlotState_seen k _ s

theorem mapArrival_seen (f : Frame) (winner : Bool) : Seen i q (mapArrival f winner) := fun s => by
  have hctl : (s.seen i q).ctl = s.ctl := rfl
  have hears : (if f.kind = .slotFrame ∧ f.cond.leaving then becomeFree f.slot s else becomeHeard f.slot f.source s).seen i q
      = if f.kind = .slotFrame ∧ f.cond.leaving then becomeFree f.slot (s.seen i q) else becomeHeard f.slot f.source (s.seen i q) := by
    split
    · exact becomeFree_seen ..
    · exact becomeHeard_seen ..
  have counts : (if winner then s else s.modSlot fun u => { u with outOfStep := satInc u.outOfStep }).seen i q
      = if winner then s.seen i q else (s.seen i q).modSlot fun u => { u with outOfStep := satInc u.outOfStep } := by
    split <;> rfl
  unfold mapArrival
  rw [hctl, slotAt_seen]
  split
  · rfl
  · split
    · exact hears
    · exact hears
    · exact counts
    · exact counts

theorem takeSequence_seen (n : Nat) (b : Byte) : Seen i q (takeSequence n b) := fun s => modPeer_seen n _ s

theorem takeCondition_seen (n : Nat) (c : Cond) : Seen i q (takeCondition n c) := by
  refine overOwn_seen n fun s => ?_
  simp only [peer_seen, ← modPeer_seen n _ s]
  split
  · rfl
  · exact raise_peer_seen ..

theorem checkLayout_seen (n : Nat) (f : Frame) : Seen i q (checkLayout n f) := by
  refine overOwn_seen n fun s => ?_
  dsimp only
  rw [peer_seen]
  split
  · rw [imageCleared_seen, raise_peer_seen, setFault_seen, modPeer_seen]
  · rfl

theorem becomeKnown_seen (n c : Nat) : Seen i q (becomeKnown n c) := fun s => by
  simp only [becomeKnown, peer_seen]
  rw [imageKnown_seen, raise_peer_seen, modPeer_seen]

theorem learnStore_seen (n : Nat) (a : AnswerSection) : Seen i q (learnStore n a) := fun s => by
  simp only [learnStore, peer_seen, ← modPeer_seen n _ s]
  split
  · exact becomeKnown_seen ..
  · rfl

theorem learnConflict_seen (n : Nat) (a : AnswerSection) : Seen i q (learnConflict n a) := fun s => by
  simp only [learnConflict]
  rw [learnStore_seen, imageCleared_seen, setFault_seen, modPeer_seen]

theorem learnFetching_seen (n : Nat) (a : AnswerSection) : Seen i q (learnFetching n a) := fun s => by
  unfold learnFetching
  rw [peer_seen]
  split
  · exact learnConflict_seen n a s
  · exact learnStore_seen n a s

/-- Not looking at the request unit, one sees nothing of the discovery record's removal, whichever answer it was. -/
theorem settleDiscovery_seen (n : Nat) (own own' : Option Nat) (h : q = true → own' = own) (s : State) :
    (settleDiscovery n own s).seen i q = settleDiscovery n own' (s.seen i q) := by
  cases q with
  | true =>
    rw [h rfl]
    have hlist : (s.seen i true).req = s.req := rfl
    unfold settleDiscovery
    rw [hlist]
    split
    · rfl
    · rw [peer_seen]
      split <;> rfl
  | false =>
    unfold settleDiscovery
    split
    · rfl
    · split <;> rfl

theorem learnAnswer_seen (n : Nat) (a : AnswerSection) (own own' : Option Nat) (h : q = true → own' = own) (s : State) :
    (learnAnswer n a own s).seen i q = learnAnswer n a own' (s.seen i q) := by
  have hctl : (s.seen i q).ctl = s.ctl := rfl
  simp only [learnAnswer, overOwn]
  rw [hctl, peer_seen]
  split
  · rfl
  · split
    · rfl
    · rw [settleDiscovery_seen n own own' h, learnFetching_seen]
    · rw [settleDiscovery_seen n own own' h, learnFetching_seen, modPeer_seen]
    · rw [settleDiscovery_seen n own own' h, learnFetching_seen, imageRetried_seen, modPeer_seen]

/-- The peer unit takes an arrival alike, whatever it does not read (R79). -/
theorem peerArrival_seen (f : Frame) : Seen i q (peerArrival f) := fun s => by
  have hctl : (s.seen i q).ctl = s.ctl := rfl
  have hown : ∀ a, q = true → ((s.seen i q).matching? f.source a).map (·.id) = (s.matching? f.source a).map (·.id) := by
    rintro a rfl
    rfl
  have hfirst : (if f.kind = .slotFrame then
        checkLayout f.source f (takeCondition f.source f.cond (takeSequence f.source f.sequence s))
      else takeSequence f.source f.sequence s).seen i q
      = if f.kind = .slotFrame then
        checkLayout f.source f (takeCondition f.source f.cond (takeSequence f.source f.sequence (s.seen i q)))
      else takeSequence f.source f.sequence (s.seen i q) := by
    split
    · rw [checkLayout_seen, takeCondition_seen, takeSequence_seen]
    · exact takeSequence_seen ..
  unfold peerArrival
  rw [hctl]
  split
  · rfl
  · dsimp only
    rw [← hfirst]
    cases f.answer with
    | none => rfl
    | some a =>
      dsimp only
      split
      · exact learnAnswer_seen _ _ _ _ (hown a) _
      · rfl

end

end Sys2Proof.Machine

namespace Sys2Proof.Machine

/-! ## Entering OFF and the LOST reports, with or without the other blocks (R21, R31, R33, R36, R48, R52) -/

theorem takePeriods_raises (s : State) : Raises EventRecord.ofImage s (takePeriods s) := by
  obtain ⟨t, -, hraised, -, -, hmoves⟩ := takePeriods_moves s
  obtain ⟨es, hes, hkind⟩ := hmoves.raises
  exact ⟨es, by rw [hes, hraised], fun e he => .inr (.inr (hkind e he))⟩

theorem takePeriods_seen {q : Bool} : Seen false q takePeriods := fun s => by
  have hleft : (takePeriods s).seen false q = { s with due := { s.due with periods := false } }.seen false q :=
    seen_of_outsideImage (outsideImage_of_units (takePeriods_outsideUnits s)) (takePeriods_raises s)
  rw [hleft, takePeriods]
  split
  · rfl
  · next h =>
    have hdue : { s.due with periods := false } = s.due := by
      rw [← Bool.eq_false_iff.mpr h]
      rfl
    rw [hdue]

theorem imageOff_seen {q : Bool} : Seen false q imageOff := by
  refine .of_absorbs (fun s => seen_of_outsideImage (imageOff_outsideImage s) ((imageOff_raises s).mono fun _ => .inr)) fun s => ?_
  have hentries : List.range (s.seen false q).image.length = [] := rfl
  unfold imageOff
  rw [hentries]
  simp only [List.take_nil, List.drop_nil, List.foldl_nil]
  rfl

theorem requestsOff_seen {i : Bool} : Seen i false requestsOff :=
  .of_absorbs (fun s => seen_of_outsideRequests (requestsOff_outsideRequests s) (requestsOff_raises s)) fun _ => rfl

theorem imageAndRequestsOff_seen : Seen false false imageAndRequestsOff :=
  Seen.ite (fun _ => Iff.rfl) (requestsOff_seen.comp imageOff_seen) (imageOff_seen.comp requestsOff_seen)

section
variable {i q : Bool}

theorem passStation_seen (st : StationState) (cause : Nat) : Seen i q (passStation st cause) := fun s =>
  raise_seen_of 1 _ cause _ (fun _ => rfl) (s.modCtl fun c => { c with state := st })

end

theorem enterOff_seen (cause : Nat) : Seen false false (enterOff cause) := fun s =>
  calc (enterOff cause s).seen false false
      = dueOff (slotOff (peersOff (answersOff (lineOff ((imageAndRequestsOff (stationOff (passStation .off cause (takePeriods s)))).seen
          false false))))) := rfl
    _ = enterOff cause (s.seen false false) := by
      rw [imageAndRequestsOff_seen]
      show dueOff (slotOff (peersOff (answersOff (lineOff (imageAndRequestsOff (stationOff ((passStation .off cause (takePeriods s)).seen
          false false))))))) = _
      rw [passStation_seen, takePeriods_seen]
      rfl

section
variable {i q : Bool}

theorem giveUpSlot_seen (x : Transmission) (winner : Option Nat) : Seen i q (giveUpSlot x winner) := fun s => by
  cases winner with
  | none =>
    simp only [giveUpSlot]
    rw [modSlotAt_seen, becomeFree_seen]
  | some n => exact becomeHeard_seen x.slot n s

/-- Entering OFF reads every block; what is seen after it does not depend on the others only where they are not seen. -/
def Sighted (i q : Bool) (t : State) : Prop := i = false ∧ q = false ∨ t.ctl.state ≠ .off

theorem followOwned_seen {s : State} (h : Sighted i q (followOwned s)) : (followOwned s).seen i q = followOwned (s.seen i q) := by
  have hctl : (s.seen i q).ctl = s.ctl := rfl
  have hcount : (s.seen i q).ownedCount = s.ownedCount := rfl
  have hoff : s.ctl.state = .leaving → s.ownedCount = 0 → i = false ∧ q = false := fun hs hc =>
    h.resolve_right fun hne => hne (by simp only [followOwned, hs, hc, if_true, enterOff_ctl])
  unfold followOwned
  rw [hctl, hcount]
  split
  · split
    · rfl
    · exact passStation_seen ..
  · split
    · exact passStation_seen ..
    · rfl
  · next hs =>
    split
    · next hc =>
      obtain ⟨rfl, rfl⟩ := hoff hs hc
      exact enterOff_seen 6 s
    · rfl
  all_goals rfl

theorem reportClaim_seen (x : Transmission) (cls : ArrivalClass) (frame : Option Frame) (clean : Nat) :
    Seen i q (reportClaim x (.lost cls frame) clean) := fun s => by
  simp only [reportClaim]
  rw [raise_slot_seen, giveUpSlot_seen]
  rfl

/-- The slot given up at a second loss, with its event, before station control follows. -/
def slotLost (x : Transmission) (winner : Option Nat) (s : State) : State :=
  raise .slot 2 x.slot (winner.getD 0) (BitVec.ofNat 32 s.ownedCount) s

theorem slotLost_seen (x : Transmission) (winner : Option Nat) : Seen i q (slotLost x winner) := fun s =>
  raise_slot_seen 2 x.slot (winner.getD 0) (BitVec.ofNat 32 s.ownedCount) s

theorem reportOwned_lost (x : Transmission) (cls : ArrivalClass) (frame : Option Frame) (clash : Nat) (s : State) :
    reportOwned x (.lost cls frame) clash s
      = if clash = 0 then s.modSlotAt x.slot fun r => { r with state := .owned 1 }
        else
          followOwned (slotLost x (knownWinner s.ctl.config.station x.slot cls frame)
            (giveUpSlot x (knownWinner s.ctl.config.station x.slot cls frame) s)) := rfl

theorem reportOwned_seen {x : Transmission} {cls : ArrivalClass} {frame : Option Frame} {clash : Nat} {s : State}
    (h : Sighted i q (reportOwned x (.lost cls frame) clash s)) :
    (reportOwned x (.lost cls frame) clash s).seen i q = reportOwned x (.lost cls frame) clash (s.seen i q) := by
  rw [reportOwned_lost] at h ⊢
  rw [reportOwned_lost]
  split
  · rfl
  · next hc =>
    rw [if_neg hc] at h
    rw [followOwned_seen h, slotLost_seen, giveUpSlot_seen]
    rfl

theorem reportToSlots_seen {x : Transmission} {cls : ArrivalClass} {frame : Option Frame} {s : State}
    (h : Sighted i q (reportToSlots x (.lost cls frame) s)) :
    (reportToSlots x (.lost cls frame) s).seen i q = reportToSlots x (.lost cls frame) (s.seen i q) := by
  have hctl : (s.seen i q).ctl = s.ctl := rfl
  unfold reportToSlots at h ⊢
  rw [slotAt_seen, hctl]
  split
  · exact reportClaim_seen ..
  · next hk hst =>
    simp only [hk, hst] at h
    split
    · next hs =>
      simp only [hs] at h
      rw [followOwned_seen h, becomeFree_seen]
    · next hs =>
      simp only [hs] at h
      exact reportOwned_seen h
    all_goals rfl
  · rfl

theorem reportEnd_seen {x : Transmission} {cls : ArrivalClass} {frame : Option Frame} {s : State}
    (h : Sighted i q (reportEnd x (.lost cls frame) s)) :
    (reportEnd x (.lost cls frame) s).seen i q = reportEnd x (.lost cls frame) (s.seen i q) := by
  rw [reportEnd_of_notSent x (by simp)] at h ⊢
  rw [reportEnd_of_notSent x (by simp), reportToSlots_seen h]

theorem Sighted.of_kept {s t : State} (h : Sighted i q t) (hk : Kept s t) : Sighted i q s := h.imp_right (mt hk.off)

theorem reportLost_seen {cls : ArrivalClass} {frame : Option Frame} {waiting : List Transmission} {s : State}
    (h : Sighted i q (reportLost cls frame waiting s)) :
    (reportLost cls frame waiting s).seen i q = reportLost cls frame waiting (s.seen i q) := by
  induction waiting generalizing s with
  | nil => rfl
  | cons x waiting ih =>
    have hrest : Sighted i q (reportEnd x (.lost cls frame) s) := h.of_kept (reportLost_kept cls frame waiting _)
    exact (ih h).trans (congrArg (reportLost cls frame waiting) (reportEnd_seen hrest))

end

end Sys2Proof.Machine

namespace Sys2Proof.Machine

/-! ## What LOST reports leave outside OFF: the request list, the answer side, the line and the slot time (R21, R31, R33) -/

/-- The events a LOST report may raise outside OFF. -/
def EventRecord.ofReport (e : EventRecord) : Prop := e.kind ≠ .request ∧ e.kind ≠ .peerWrite

theorem EventRecord.ofImage.ofReport {e : EventRecord} (h : e.ofImage) : e.ofReport := by
  rcases h with h | h | h <;> exact ⟨by simp [h], by simp [h]⟩

/-- What a LOST report outside OFF leaves as it is. -/
structure Reported (s t : State) : Prop where
  frame : t.outsideMap = { s with ctl := t.ctl }.outsideMap
  config : t.ctl.config = s.ctl.config
  serves : t.ctl.state.serves = s.ctl.state.serves
  req : t.req = s.req
  raised : Raises EventRecord.ofReport s t

theorem Reported.refl (s : State) : Reported s s := ⟨rfl, rfl, rfl, rfl, .of_eq rfl⟩

theorem Reported.trans {s t u : State} (h : Reported s t) (g : Reported t u) : Reported s u where
  frame := g.frame.trans (congrArg (fun v : State => { v with ctl := u.ctl }) h.frame :)
  config := g.config.trans h.config
  serves := g.serves.trans h.serves
  req := g.req.trans h.req
  raised := h.raised.trans g.raised

theorem Reported.of_image {s t : State} (h : t.outsideImage = s.outsideImage) (hr : Raises EventRecord.ofImage s t) : Reported s t := by
  have hctl : t.ctl = s.ctl := (congrArg State.ctl h :)
  refine ⟨?_, by rw [hctl], by rw [hctl], (congrArg State.req h :), hr.mono fun _ => EventRecord.ofImage.ofReport⟩
  rw [hctl]
  exact (congrArg State.outsideMap h :)

theorem raise_reported {k : EventKind} (hk : k ≠ .request ∧ k ≠ .peerWrite) (c n d : Nat) (v : Word) (s : State) :
    Reported s (raise k c n d v s) := ⟨rfl, rfl, rfl, rfl, raise_raises hk⟩

theorem modSlotAt_reported (k : Nat) (f : SlotRecord → SlotRecord) (s : State) : Reported s (s.modSlotAt k f) :=
  ⟨rfl, rfl, rfl, rfl, .of_eq rfl⟩

theorem modPeer_reported (n : Nat) (f : PeerRecord → PeerRecord) (s : State) : Reported s (s.modPeer n f) := by
  unfold State.modPeer
  split
  · exact .refl s
  · exact ⟨rfl, rfl, rfl, rfl, .of_eq rfl⟩

theorem passStation_reported {st : StationState} {s : State} (h : st.serves = s.ctl.state.serves) (cause : Nat) :
    Reported s (passStation st cause s) := ⟨rfl, rfl, h, rfl, raise_raises ⟨by simp, by simp⟩⟩

theorem imageRetried_ofImage (n : Nat) (s : State) : Raises EventRecord.ofImage s (imageRetried n s) :=
  forEntries_raises (fun i s => (passEntry_ofImage i _ _ s).trans (resolveEntry_ofImage i _)) s

theorem imagePresent_ofImage (n : Nat) (s : State) : Raises EventRecord.ofImage s (imagePresent n s) := by
  refine forEntries_raises (fun i s => Raises.trans ?_ (resolveEntry_ofImage i _)) s
  split
  · exact passEntry_ofImage ..
  · exact .of_eq rfl

theorem imageRetried_reported (n : Nat) (s : State) : Reported s (imageRetried n s) :=
  .of_image (imageRetried_outsideImage n s) (imageRetried_ofImage n s)

theorem imagePresent_reported (n : Nat) (s : State) : Reported s (imagePresent n s) :=
  .of_image (imagePresent_outsideImage n s) (imagePresent_ofImage n s)

theorem becomePresent_reported (n : Nat) (s : State) : Reported s (becomePresent n s) := by
  refine Reported.trans ?_ (imagePresent_reported n _)
  split
  · exact ((modPeer_reported ..).trans (raise_reported ⟨by simp, by simp⟩ ..)).trans (imageRetried_reported ..)
  · exact (modPeer_reported ..).trans (raise_reported ⟨by simp, by simp⟩ ..)

theorem gainSlot_reported (n : Nat) (s : State) : Reported s (gainSlot n s) := by
  unfold gainSlot overOwn
  split
  · exact .refl s
  · dsimp only
    split
    · exact (modPeer_reported ..).trans (becomePresent_reported ..)
    · exact modPeer_reported ..

/-- A record without an owner that becomes HEARD gives the peer one slot more. -/
theorem becomeHeard_of_noOwner {s : State} {k : Nat} (h : (s.slotAt k).state.owner? = none) (hk : k < s.slot.map.length) (n : Nat) :
    becomeHeard k n s = gainSlot n (s.modSlotAt k fun r => { r with state := .heard n 0, ownerHeard := true }) := by
  have hafter : ((s.modSlotAt k fun r => { r with state := .heard n 0, ownerHeard := true }).slotAt k).state.owner? = some n := by
    rw [slotAt_modSlotAt, if_pos hk]
    rfl
  simp only [becomeHeard, setSlotState, h, hafter, changeOwner, reduceCtorEq, if_false]

theorem giveUpSlot_reported {x : Transmission} {s : State} (h : (s.slotAt x.slot).state.owner? = none)
    (hx : x.slot < s.slot.map.length) (winner : Option Nat) : Reported s (giveUpSlot x winner s) := by
  cases winner with
  | none =>
    rw [giveUpSlot_unknown h]
    exact modSlotAt_reported ..
  | some n =>
    simp only [giveUpSlot]
    rw [becomeHeard_of_noOwner h hx]
    exact (modSlotAt_reported ..).trans (gainSlot_reported ..)

theorem followOwned_reported {s : State} (h : (followOwned s).ctl.state ≠ .off) : Reported s (followOwned s) := by
  unfold followOwned at h ⊢
  split
  · next hs =>
    split
    · exact .refl s
    · exact passStation_reported (by rw [hs]; rfl) 3
  · next hs =>
    split
    · exact passStation_reported (by rw [hs]; rfl) 4
    · exact .refl s
  · next hs =>
    split
    · next hc =>
      simp only [hs, hc, if_true] at h
      exact absurd (by rw [enterOff_ctl]) h
    · exact .refl s
  all_goals exact .refl s

theorem reportEnd_reported {x : Transmission} {cls : ArrivalClass} {frame : Option Frame} {s : State}
    (h : (reportEnd x (.lost cls frame) s).ctl.state ≠ .off) : Reported s (reportEnd x (.lost cls frame) s) := by
  rw [reportEnd_of_notSent x (by simp)] at h ⊢
  unfold reportToSlots at h ⊢
  split
  · next hst =>
    have hgive := giveUpSlot_reported (s := s) (x := x) (by rw [hst]; rfl) (lt_of_slotAt_ne (by rw [hst]; simp))
      (knownWinner s.ctl.config.station x.slot cls frame)
    exact hgive.trans (raise_reported ⟨by simp, by simp⟩ ..)
  · next hk hst =>
    have hx : x.slot < s.slot.map.length := lt_of_slotAt_ne (by rw [hst]; simp)
    have hnone : (s.slotAt x.slot).state.owner? = none := by
      rw [hst]
      rfl
    simp only [hk, hst] at h
    split
    · next hs =>
      simp only [hs, becomeFree_of_noOwner hnone] at h ⊢
      exact (modSlotAt_reported ..).trans (followOwned_reported h)
    · next hs =>
      simp only [hs, reportOwned_lost] at h ⊢
      split
      · exact modSlotAt_reported ..
      · next hc =>
        rw [if_neg hc] at h
        exact ((giveUpSlot_reported hnone hx _).trans (raise_reported ⟨by simp, by simp⟩ ..)).trans (followOwned_reported h)
    all_goals exact .refl s
  · exact .refl s

theorem reportLost_reported {cls : ArrivalClass} {frame : Option Frame} {waiting : List Transmission} {s : State}
    (h : (reportLost cls frame waiting s).ctl.state ≠ .off) : Reported s (reportLost cls frame waiting s) := by
  induction waiting generalizing s with
  | nil => exact .refl s
  | cons x waiting ih =>
    have hrest : (reportEnd x (.lost cls frame) s).ctl.state ≠ .off := mt (reportLost_kept cls frame waiting _).off h
    exact (reportEnd_reported hrest).trans (ih h)

end Sys2Proof.Machine

namespace Sys2Proof.Machine

/-! ## The events of an arrival: no write of a peer, and no STATION event but those of station control (R57, R72, R168) -/

/-- The events the blocks raise on an arrival, those of the answer side apart. -/
def EventRecord.ofArrival (e : EventRecord) : Prop := e.kind ≠ .peerWrite ∧ (e.kind = .station → e.block = 2)

theorem EventRecord.ofArrival_of {e : EventRecord} (hw : e.kind ≠ .peerWrite) (hs : e.kind ≠ .station) : e.ofArrival :=
  ⟨hw, fun h => absurd h hs⟩

theorem Raises.arrival_of_image {s t : State} (h : Raises EventRecord.ofImage s t) : Raises EventRecord.ofArrival s t :=
  h.mono fun e he => by rcases he with he | he | he <;> exact EventRecord.ofArrival_of (by simp [he]) (by simp [he])

theorem Raises.arrival_of_requests {s t : State} (h : Raises (·.kind = .request) s t) : Raises EventRecord.ofArrival s t :=
  h.mono fun e he => EventRecord.ofArrival_of (by simp [he]) (by simp [he])

/-- A block's own reaction raises what an arrival may raise. -/
def Arrives (g : State → State) : Prop := ∀ s, Raises EventRecord.ofArrival s (g s)

theorem Arrives.comp {f g : State → State} (hf : Arrives f) (hg : Arrives g) : Arrives fun s => f (g s) := fun s => (hg s).trans (hf _)

theorem Arrives.ite {c : State → Prop} [∀ s, Decidable (c s)] {f g : State → State} (hf : Arrives f) (hg : Arrives g) :
    Arrives fun s => if c s then f s else g s := fun s => by
  dsimp only
  split
  · exact hf s
  · exact hg s

theorem arrives_id : Arrives fun s => s := fun _ => .of_eq rfl

theorem raise_arrives {k : EventKind} (hw : k ≠ .peerWrite) (hs : k ≠ .station) (c n d : Nat) (v : Word) : Arrives (raise k c n d v) :=
  fun _ => raise_raises (EventRecord.ofArrival_of hw hs)

theorem modPeer_arrives (n : Nat) (f : PeerRecord → PeerRecord) : Arrives (State.modPeer n f) := fun s => by
  unfold State.modPeer
  split <;> exact .of_eq rfl

theorem modSlotAt_arrives (k : Nat) (f : SlotRecord → SlotRecord) : Arrives (State.modSlotAt k f) := fun _ => .of_eq rfl

theorem overOwn_arrives {g : State → State} (hg : Arrives g) (n : Nat) : Arrives (overOwn n g) := Arrives.ite arrives_id hg

/-! ### The image unit -/

theorem imageAbsent_arrives (n : Nat) : Arrives (imageAbsent n) := fun s =>
  (forEntries_raises (fun i s => passEntry_ofImage i _ _ s) s).arrival_of_image

theorem imageCleared_arrives (n : Nat) : Arrives (imageCleared n) := fun s =>
  (forEntries_raises (fun i s => passEntry_ofImage i _ _ s) s).arrival_of_image

theorem imageKnown_arrives (n : Nat) : Arrives (imageKnown n) := fun s =>
  (forEntries_raises resolveEntry_ofImage s).arrival_of_image

theorem imageRetried_arrives (n : Nat) : Arrives (imageRetried n) := fun s =>
  (imageRetried_ofImage n s).arrival_of_image

theorem imagePresent_arrives (n : Nat) : Arrives (imagePresent n) := fun s =>
  (imagePresent_ofImage n s).arrival_of_image

theorem imageArrival_arrives (f : Frame) (v : Verdict) : Arrives (imageArrival f v) :=
  Arrives.ite (fun s => (forEntries_raises (valueArrival_ofImage f) s).arrival_of_image) arrives_id

/-! ### The peer unit and the slot map -/

theorem setFault_arrives (n : Nat) (name : FaultName) : Arrives (setFault n name) :=
  overOwn_arrives (Arrives.ite arrives_id fun s => (modPeer_arrives n _ s).trans (raise_arrives (by simp) (by simp) ..)) n

theorem becomeAbsent_arrives (n : Nat) : Arrives (becomeAbsent n) := fun s => by
  have hdiscovery : Arrives (removeDiscovery n) := fun _ => .of_eq rfl
  have hrequests : Arrives (requestsAbsent n) := fun s => (requestsAbsent_raises n s).arrival_of_requests
  unfold becomeAbsent
  exact ((((modPeer_arrives ..).trans (raise_arrives (by simp) (by simp) ..)).trans (hdiscovery _)).trans
    (imageAbsent_arrives ..)).trans (hrequests _)

theorem becomePresent_arrives (n : Nat) : Arrives (becomePresent n) := fun s => by
  refine Raises.trans ?_ (imagePresent_arrives n _)
  split
  · exact ((modPeer_arrives ..).trans (raise_arrives (by simp) (by simp) ..)).trans (imageRetried_arrives ..)
  · exact (modPeer_arrives ..).trans (raise_arrives (by simp) (by simp) ..)

theorem loseSlot_arrives (n : Nat) : Arrives (loseSlot n) := by
  refine overOwn_arrives (fun s => ?_) n
  dsimp only
  split
  · exact (modPeer_arrives ..).trans (becomeAbsent_arrives ..)
  · exact modPeer_arrives ..

theorem gainSlot_arrives (n : Nat) : Arrives (gainSlot n) := by
  refine overOwn_arrives (fun s => ?_) n
  dsimp only
  split
  · exact (modPeer_arrives ..).trans (becomePresent_arrives ..)
  · exact modPeer_arrives ..

theorem changeOwner_arrives (before after : Option Nat) : Arrives (changeOwner before after) := fun s => by
  unfold changeOwner
  split
  · exact .of_eq rfl
  · cases before <;> cases after
    · exact .of_eq rfl
    · exact gainSlot_arrives ..
    · exact loseSlot_arrives ..
    · exact (loseSlot_arrives ..).trans (gainSlot_arrives ..)

theorem setSlotState_arrives (k : Nat) (f : SlotRecord → SlotRecord) : Arrives (setSlotState k f) := fun s =>
  (modSlotAt_arrives k f s).trans (changeOwner_arrives ..)

theorem mapArrival_arrives (f : Frame) (winner : Bool) : Arrives (mapArrival f winner) := fun s => by
  have heard : Raises EventRecord.ofArrival s
      (if f.kind = .slotFrame ∧ f.cond.leaving then becomeFree f.slot s else becomeHeard f.slot f.source s) := by
    split <;> exact setSlotState_arrives ..
  have counts : Raises EventRecord.ofArrival s
      (if winner then s else s.modSlot fun u => { u with outOfStep := satInc u.outOfStep }) := by
    split <;> exact .of_eq rfl
  unfold mapArrival
  split
  · exact .of_eq rfl
  · split
    · exact heard
    · exact heard
    · exact counts
    · exact counts

theorem takeCondition_arrives (n : Nat) (c : Cond) : Arrives (takeCondition n c) :=
  overOwn_arrives (Arrives.ite arrives_id fun s => (modPeer_arrives n _ s).trans (raise_arrives (by simp) (by simp) ..)) n

theorem checkLayout_arrives (n : Nat) (f : Frame) : Arrives (checkLayout n f) := by
  refine overOwn_arrives (fun s => ?_) n
  dsimp only
  split
  · exact (((modPeer_arrives ..).trans (setFault_arrives ..)).trans (raise_arrives (by simp) (by simp) ..)).trans
      (imageCleared_arrives ..)
  · exact .of_eq rfl

theorem learnStore_arrives (n : Nat) (a : AnswerSection) : Arrives (learnStore n a) := fun s => by
  unfold learnStore becomeKnown
  dsimp only
  split
  · exact (((modPeer_arrives ..).trans (modPeer_arrives ..)).trans (raise_arrives (by simp) (by simp) ..)).trans (imageKnown_arrives ..)
  · exact modPeer_arrives ..

theorem learnFetching_arrives (n : Nat) (a : AnswerSection) : Arrives (learnFetching n a) :=
  Arrives.ite
    (fun _ => (((modPeer_arrives ..).trans (setFault_arrives ..)).trans (imageCleared_arrives ..)).trans (learnStore_arrives ..))
    (learnStore_arrives n a)

theorem settleDiscovery_arrives (n : Nat) (own : Option Nat) : Arrives (settleDiscovery n own) := fun s => by
  unfold settleDiscovery
  split
  · exact .of_eq rfl
  · split <;> exact .of_eq rfl

theorem learnAnswer_arrives (n : Nat) (a : AnswerSection) (own : Option Nat) : Arrives (learnAnswer n a own) := by
  refine overOwn_arrives (fun s => ?_) n
  split
  · exact .of_eq rfl
  · exact (learnFetching_arrives ..).trans (settleDiscovery_arrives ..)
  · exact ((modPeer_arrives ..).trans (learnFetching_arrives ..)).trans (settleDiscovery_arrives ..)
  · exact (((modPeer_arrives ..).trans (imageRetried_arrives ..)).trans (learnFetching_arrives ..)).trans (settleDiscovery_arrives ..)

theorem peerArrival_arrives (f : Frame) : Arrives (peerArrival f) := fun s => by
  have hframe : Raises EventRecord.ofArrival s
      (if f.kind = .slotFrame then checkLayout f.source f (takeCondition f.source f.cond (takeSequence f.source f.sequence s))
       else takeSequence f.source f.sequence s) := by
    have hsequence : Raises EventRecord.ofArrival s (takeSequence f.source f.sequence s) := modPeer_arrives ..
    split
    · exact (hsequence.trans (takeCondition_arrives ..)).trans (checkLayout_arrives ..)
    · exact hsequence
  unfold peerArrival
  split
  · exact .of_eq rfl
  · dsimp only
    split
    · split
      · exact hframe.trans (learnAnswer_arrives ..)
      · exact hframe
    · exact hframe

/-! ### The request unit -/

theorem answerArrival_arrives (n : Nat) (a : AnswerSection) : Arrives (answerArrival n a) := fun s => by
  unfold answerArrival
  split
  · split
    · split
      · exact (endRecord_raises ..).arrival_of_requests
      · exact .of_eq rfl
    · exact .of_eq rfl
  · exact .of_eq rfl

/-! ### The LOST reports and entering OFF -/

theorem passStation_arrives (st : StationState) (cause : Nat) : Arrives (passStation st cause) := fun _ =>
  raise_raises ⟨by simp, fun _ => rfl⟩

theorem imageAndRequestsOff_arrives : Arrives imageAndRequestsOff := by
  have himage : Arrives imageOff := fun s => ((imageOff_raises s).mono fun _ => .inr).arrival_of_image
  have hrequests : Arrives requestsOff := fun s => (requestsOff_raises s).arrival_of_requests
  exact Arrives.ite (hrequests.comp himage) (himage.comp hrequests)

theorem enterOff_arrives (cause : Nat) : Arrives (enterOff cause) := fun s => by
  have hpassed : Raises EventRecord.ofArrival s (stationOff (passStation .off cause (takePeriods s))) :=
    ((takePeriods_raises s).arrival_of_image.trans (passStation_arrives ..)).trans (.of_eq rfl)
  exact (hpassed.trans (imageAndRequestsOff_arrives _)).trans (.of_eq rfl)

theorem followOwned_arrives : Arrives followOwned := fun s => by
  unfold followOwned
  split
  · split
    · exact .of_eq rfl
    · exact passStation_arrives ..
  · split
    · exact passStation_arrives ..
    · exact .of_eq rfl
  · split
    · exact enterOff_arrives ..
    · exact .of_eq rfl
  all_goals exact .of_eq rfl

theorem giveUpSlot_arrives (x : Transmission) (winner : Option Nat) : Arrives (giveUpSlot x winner) := fun s => by
  cases winner with
  | none => exact (setSlotState_arrives ..).trans (modSlotAt_arrives ..)
  | some n => exact setSlotState_arrives ..

theorem reportEnd_arrives (x : Transmission) (cls : ArrivalClass) (frame : Option Frame) : Arrives (reportEnd x (.lost cls frame)) :=
  fun s => by
  rw [reportEnd_of_notSent x (by simp)]
  unfold reportToSlots
  split
  · exact (giveUpSlot_arrives ..).trans (raise_arrives (by simp) (by simp) ..)
  · split
    · exact (setSlotState_arrives ..).trans (followOwned_arrives _)
    · rw [reportOwned_lost]
      split
      · exact modSlotAt_arrives ..
      · exact ((giveUpSlot_arrives ..).trans (raise_arrives (by simp) (by simp) ..)).trans (followOwned_arrives _)
    all_goals exact .of_eq rfl
  · exact .of_eq rfl

theorem reportLost_arrives (cls : ArrivalClass) (frame : Option Frame) (waiting : List Transmission) :
    Arrives (reportLost cls frame waiting) := fun _ =>
  foldl_keeps (fun t x ht => ht.trans (reportEnd_arrives x cls frame t)) waiting (.of_eq rfl)

end Sys2Proof.Machine

namespace Sys2Proof.Machine

/-! ## The request unit takes an answer alike whatever the other blocks hold (R139, R140) -/

/-- The request list of `s`, and the events raised with it, in the place of those of `u`. -/
def State.withRequests (u s : State) : State := { u with req := s.req, raised := u.raised ++ s.raised }

theorem closeRecord_withRequests {u s : State} (h : u.slot.round = s.slot.round) (id : Nat) (o : RequestOutcome) (c : Content) :
    closeRecord id o c (u.withRequests s) = u.withRequests (closeRecord id o c s) := by
  have hrecord : (u.withRequests s).record? id = s.record? id := rfl
  unfold closeRecord
  rw [hrecord]
  split
  · rfl
  · dsimp only
    split
    · simp only [raise, State.withRequests, State.modRecord, State.modList, State.modReq, h, List.append_assoc]
    · rfl

theorem closeRecord_slot (id : Nat) (o : RequestOutcome) (c : Content) (s : State) : (closeRecord id o c s).slot = s.slot :=
  (congrArg State.slot (closeRecord_outsideRequests id o c s) :)

theorem breakChain_withRequests {u s : State} (h : u.slot.round = s.slot.round) (ids failed unsuccessful : List Nat) :
    breakChain ids failed unsuccessful (u.withRequests s) = u.withRequests (breakChain ids failed unsuccessful s) := by
  induction ids generalizing failed s with
  | nil => rfl
  | cons id ids ih =>
    have hrecord : (u.withRequests s).record? id = s.record? id := rfl
    simp only [breakChain]
    rw [hrecord]
    split
    · exact ih h failed
    · split
      · rw [closeRecord_withRequests h, ih (by rw [closeRecord_slot, h])]
      · exact ih h failed

theorem endRecord_withRequests {u s : State} (h : u.slot.round = s.slot.round) (id : Nat) (o : RequestOutcome) (c : Content) :
    endRecord id o c (u.withRequests s) = u.withRequests (endRecord id o c s) := by
  have hids : ∀ t : State, (u.withRequests t).recordIds = t.recordIds := fun _ => rfl
  unfold endRecord
  simp only [closeRecord_withRequests h, hids]
  split
  case h_1 | h_2 => rfl
  all_goals exact breakChain_withRequests (by rw [closeRecord_slot, h]) ..

theorem answerArrival_withRequests {u s : State} (h : u.slot.round = s.slot.round) (hconfig : u.ctl.config = s.ctl.config) (n : Nat)
    (a : AnswerSection) : answerArrival n a (u.withRequests s) = u.withRequests (answerArrival n a s) := by
  have hctl : (u.withRequests s).ctl.config = s.ctl.config := hconfig
  have hmatching : (u.withRequests s).matching? n a = s.matching? n a := by
    unfold State.matching?
    rw [hctl]
    rfl
  unfold answerArrival
  rw [hctl, hmatching]
  split
  · split
    · split
      · exact endRecord_withRequests h ..
      · rfl
    · rfl
  · rfl

/-- What an answer makes of the request list, and the events of it, depend on the list, the station's number and the round. -/
theorem answerArrival_congr {s t : State} (hreq : t.req = s.req) (hround : t.slot.round = s.slot.round)
    (hconfig : t.ctl.config = s.ctl.config) (n : Nat) (a : AnswerSection) :
    (answerArrival n a t).req = (answerArrival n a s).req
      ∧ ∃ es, (answerArrival n a t).raised = t.raised ++ es ∧ (answerArrival n a s).raised = s.raised ++ es := by
  have hself : ∀ u : State, u.req = s.req → u.withRequests { s with raised := [] } = u := fun u hu => by
    unfold State.withRequests
    rw [List.append_nil, ← hu]
  have hs := answerArrival_withRequests (u := s) (s := { s with raised := [] }) rfl rfl n a
  have ht := answerArrival_withRequests (u := t) (s := { s with raised := [] }) hround hconfig n a
  rw [hself s rfl] at hs
  rw [hself t hreq] at ht
  rw [hs, ht]
  exact ⟨rfl, _, rfl, rfl⟩

/-! ## The blocks take a GOOD arrival, in the order that the free choices give (R12) -/

/-- The request unit's part of an arrival. -/
def answersTaken (f : Frame) (s : State) : State :=
  match f.answer with
  | some a => answerArrival f.source a s
  | none => s

/-- The answer side's part of an arrival. -/
def requestTaken (f : Frame) (s : State) : State :=
  match f.request with
  | some r => requestArrival f.source r s
  | none => s

/-- The parts of the blocks between the peer unit's and the LOST reports, where those come last. -/
def blocksBefore (f : Frame) (v : Verdict) (winner : Bool) (o : Order) (s : State) : State :=
  let s := if o.mapBeforeValues then s else imageArrival f v s
  let s := if o.mapBeforeAnswers then s else answersTaken f s
  let s := mapArrival f winner s
  let s := if o.mapBeforeValues then imageArrival f v s else s
  let s := if o.mapBeforeAnswers then answersTaken f s else s
  requestTaken f s

/-- The parts of the blocks after the peer unit's, in the order of the free choices. -/
def blocksTake (f : Frame) (v : Verdict) (winner : Bool) (waiting : List Transmission) (o : Order) (s : State) : State :=
  if o.reportsFirst then
    answersTaken f (requestTaken f (imageArrival f v (reportLost .good (some f) waiting (mapArrival f winner s))))
  else reportLost .good (some f) waiting (blocksBefore f v winner o s)

/-- The state the peer unit finds: the alignment adopted before the blocks, where the free choices have it so. -/
def adoptedEarly (f : Frame) (bytes : Nat) (s : State) : State :=
  if adopts s ∧ s.order.adoptFirst then earlyReactions (adopt f.slot bytes s) else s

/-- The alignment adopted after the blocks, where it was not before. -/
def adoptedLate (f : Frame) (bytes : Nat) (s t : State) : State :=
  if adopts s ∧ ¬s.order.adoptFirst ∧ t.ctl.state ≠ .off then adopt f.slot bytes t else t

theorem handArrival_eq (f : Frame) (bytes : Nat) (waiting : List Transmission) (s : State) :
    handArrival f bytes waiting s
      = adoptedLate f bytes s
          (blocksTake f ((s.peer f.source).verdict f) (waiting.any fun t => t.slot == f.slot) waiting s.order
            (peerArrival f (adoptedEarly f bytes s))) := rfl

theorem answersTaken_arrives (f : Frame) : Arrives (answersTaken f) := by
  unfold answersTaken
  cases f.answer with
  | none => exact arrives_id
  | some a => exact answerArrival_arrives f.source a

section
variable {i q : Bool}

theorem answersTaken_seen (f : Frame) : Seen i true (answersTaken f) := fun s => by
  unfold answersTaken
  cases f.answer with
  | none => rfl
  | some a => exact answerArrival_seen f.source a s

theorem answersTaken_unseen (f : Frame) (s : State) : (answersTaken f s).seen i false = s.seen i false := by
  unfold answersTaken
  cases f.answer with
  | none => rfl
  | some a => exact answerArrival_unseen f.source a s

theorem requestTaken_unseen (f : Frame) (s : State) : (requestTaken f s).seen i q = s.seen i q := by
  unfold requestTaken
  cases f.request with
  | none => rfl
  | some r => exact requestArrival_unseen f.source r s

theorem imageArrival_unseen (f : Frame) (v : Verdict) (s : State) : (imageArrival f v s).seen false q = s.seen false q := by
  unfold imageArrival
  split
  · exact seen_of_outsideImage (forEntries_outsideImage _ (valueArrival_outsideImage f) s) (forEntries_raises (valueArrival_ofImage f) s)
  · rfl

end

theorem seen_core {i q : Bool} {s t : State} (h : t.seen i q = s.seen i q) : t.seen false false = s.seen false false := by
  have hseen : ∀ u : State, u.seen false false = (u.seen i q).seen false false := fun u => by
    have hraised : u.raised.filter (EventRecord.seen false false)
        = (u.raised.filter (EventRecord.seen i q)).filter (EventRecord.seen false false) := by
      rw [List.filter_filter]
      exact List.filter_congr fun e _ => by unfold EventRecord.seen; cases e.kind <;> simp
    simp only [State.seen, Bool.false_eq_true, if_false, ← hraised]
  rw [hseen t, hseen s, h]

theorem ctl_of_seen {i q : Bool} {s t : State} (h : t.seen i q = s.seen i q) : t.ctl = s.ctl := (congrArg State.ctl h :)

/-- LOST reports from states seen alike leave states seen alike. -/
theorem reportLost_congr {i q : Bool} {cls : ArrivalClass} {frame : Option Frame} {waiting : List Transmission} {s t : State}
    (h : t.seen i q = s.seen i q) (ht : Sighted i q (reportLost cls frame waiting t)) :
    (reportLost cls frame waiting t).seen i q = (reportLost cls frame waiting s).seen i q := by
  have hcore : (reportLost cls frame waiting t).seen false false = (reportLost cls frame waiting s).seen false false := by
    rw [reportLost_seen (.inl ⟨rfl, rfl⟩), reportLost_seen (.inl ⟨rfl, rfl⟩), seen_core h]
  have hs : Sighted i q (reportLost cls frame waiting s) := ht.imp_right fun hne => ctl_of_seen hcore ▸ hne
  rw [reportLost_seen ht, reportLost_seen hs, h]

end Sys2Proof.Machine

namespace Sys2Proof.Machine

/-! ## What each block has taken when all have (R12) -/

theorem ofKind_of_seen {i q : Bool} {s t : State} (h : t.seen i q = s.seen i q) {k : EventKind}
    (hk : ∀ e : EventRecord, e.kind = k → e.seen i q = true) : ofKind k t.raised = ofKind k s.raised := by
  have hfilter : ∀ es : List EventRecord, ofKind k es = ofKind k (es.filter (EventRecord.seen i q)) := fun es => by
    rw [ofKind, ofKind, List.filter_filter]
    refine List.filter_congr fun e _ => ?_
    by_cases he : e.kind = k
    · simp [he, hk e he]
    · simp [he]
  rw [hfilter, hfilter s.raised]
  exact congrArg (ofKind k) (congrArg State.raised h :)

theorem ofKind_of_raises {p : EventRecord → Prop} {s t : State} (h : Raises p s t) {k : EventKind} (hk : ∀ e, p e → e.kind ≠ k) :
    ofKind k t.raised = ofKind k s.raised := by
  obtain ⟨es, hes, hall⟩ := h
  rw [hes, ofKind_append, ofKind_eq_nil fun e he => hk e (hall e he), List.append_nil]

/-- Two states that differ in the slot counter and the slot timer alone, as far as the blocks take an arrival. -/
structure Alike (s t : State) : Prop where
  seen : ∀ i q, t.seen i q = s.seen i q
  pub : t.pub = s.pub
  serial : t.serial = s.serial
  writes : ofKind .peerWrite t.raised = ofKind .peerWrite s.raised

section
variable {f : Frame} {v : Verdict} {winner : Bool} {waiting : List Transmission} {o : Order} {s t : State}

theorem mapArrival_congr {i q : Bool} (h : t.seen i q = s.seen i q) :
    (mapArrival f winner t).seen i q = (mapArrival f winner s).seen i q := by
  rw [mapArrival_seen, mapArrival_seen, h]

theorem imageArrival_congr {i q : Bool} (h : t.seen i q = s.seen i q) : (imageArrival f v t).seen i q = (imageArrival f v s).seen i q := by
  rw [imageArrival_seen, imageArrival_seen, h]

theorem answersTaken_seen_congr {i : Bool} (h : t.seen i true = s.seen i true) :
    (answersTaken f t).seen i true = (answersTaken f s).seen i true := by
  rw [answersTaken_seen, answersTaken_seen, h]

theorem blocksBefore_core (h : t.seen false false = s.seen false false) :
    (blocksBefore f v winner o t).seen false false = (mapArrival f winner s).seen false false := by
  unfold blocksBefore
  rw [requestTaken_unseen]
  cases o.mapBeforeValues <;> cases o.mapBeforeAnswers <;>
    simp only [if_true, if_false, Bool.false_eq_true, answersTaken_unseen, imageArrival_unseen, mapArrival_seen _ _ _, h]

theorem blocksBefore_image (h : t.seen true false = s.seen true false) :
    ∃ w, (w = imageArrival f v (mapArrival f winner s) ∨ w = mapArrival f winner (imageArrival f v s))
      ∧ (blocksBefore f v winner o t).seen true false = w.seen true false := by
  unfold blocksBefore
  rw [requestTaken_unseen]
  cases o.mapBeforeValues with
  | true =>
    refine ⟨_, .inl rfl, ?_⟩
    cases o.mapBeforeAnswers <;>
      simp only [if_true, if_false, Bool.false_eq_true, answersTaken_unseen, imageArrival_seen _ _ _, mapArrival_seen _ _ _, h]
  | false =>
    refine ⟨_, .inr rfl, ?_⟩
    cases o.mapBeforeAnswers <;>
      simp only [if_true, if_false, Bool.false_eq_true, answersTaken_unseen, imageArrival_seen _ _ _, mapArrival_seen _ _ _, h]

theorem blocksBefore_requests (h : t.seen false true = s.seen false true) :
    ∃ w, (w = answersTaken f (mapArrival f winner s) ∨ w = mapArrival f winner (answersTaken f s))
      ∧ (blocksBefore f v winner o t).seen false true = w.seen false true := by
  unfold blocksBefore
  rw [requestTaken_unseen]
  cases o.mapBeforeAnswers with
  | true =>
    refine ⟨_, .inl rfl, ?_⟩
    cases o.mapBeforeValues <;>
      simp only [if_true, if_false, Bool.false_eq_true, imageArrival_unseen, answersTaken_seen _ _, mapArrival_seen _ _ _, h]
  | false =>
    refine ⟨_, .inr rfl, ?_⟩
    cases o.mapBeforeValues <;>
      simp only [if_true, if_false, Bool.false_eq_true, imageArrival_unseen, answersTaken_seen _ _, mapArrival_seen _ _ _, h]

/-- Station control, peers and slot map: as the reports after the slot map's taking leave them. -/
theorem blocksTake_core (h : Alike s t) : (blocksTake f v winner waiting o t).seen false false
    = (reportLost .good (some f) waiting (mapArrival f winner s)).seen false false := by
  unfold blocksTake
  split
  · simp only [answersTaken_unseen, requestTaken_unseen, imageArrival_unseen]
    exact reportLost_congr (mapArrival_congr (h.seen ..)) (.inl ⟨rfl, rfl⟩)
  · exact reportLost_congr (blocksBefore_core (h.seen ..)) (.inl ⟨rfl, rfl⟩)

theorem blocksTake_ctl (h : Alike s t) : (blocksTake f v winner waiting o t).ctl
    = (reportLost .good (some f) waiting (mapArrival f winner s)).ctl := ctl_of_seen (blocksTake_core h)

/-- The image table and the units: as the values leave them, taken at one of three moments. -/
theorem blocksTake_image (h : Alike s t) (hoff : (reportLost .good (some f) waiting (mapArrival f winner s)).ctl.state ≠ .off) :
    ∃ w, (w = imageArrival f v (reportLost .good (some f) waiting (mapArrival f winner s))
          ∨ w = reportLost .good (some f) waiting (imageArrival f v (mapArrival f winner s))
          ∨ w = reportLost .good (some f) waiting (mapArrival f winner (imageArrival f v s)))
        ∧ (blocksTake f v winner waiting o t).seen true false = w.seen true false := by
  have hmap := reportLost_congr (cls := .good) (frame := some f) (waiting := waiting)
    (mapArrival_congr (f := f) (winner := winner) (h.seen true false).symm) (.inr hoff)
  unfold blocksTake
  split
  · refine ⟨_, .inl rfl, ?_⟩
    simp only [answersTaken_unseen, requestTaken_unseen]
    exact imageArrival_congr hmap.symm
  · next hlast =>
    rw [← blocksTake_ctl (v := v) (o := o) h, blocksTake, if_neg hlast] at hoff
    obtain ⟨w, hw, hseen⟩ := blocksBefore_image (f := f) (v := v) (winner := winner) (o := o) (h.seen true false)
    exact ⟨_, .inr (hw.imp (congrArg _) (congrArg _)), reportLost_congr hseen (.inr hoff)⟩

theorem answersTaken_congr (h : Reported s t) :
    (answersTaken f t).req = (answersTaken f s).req ∧ ofKind .request (answersTaken f t).raised = ofKind .request (answersTaken f s).raised := by
  have hround : t.slot.round = s.slot.round := (congrArg (·.slot.round) h.frame :)
  have hraised : ofKind .request t.raised = ofKind .request s.raised := ofKind_of_raises h.raised fun _ he => he.1
  unfold answersTaken
  cases f.answer with
  | none => exact ⟨h.req, hraised⟩
  | some a =>
    obtain ⟨hreq, es, ht, hs⟩ := answerArrival_congr h.req hround h.config f.source a
    refine ⟨hreq, ?_⟩
    dsimp only
    rw [ht, hs, ofKind_append, ofKind_append, hraised]

/-- The request list: as the answer leaves it, taken before or after the slot map. -/
theorem blocksTake_requests (h : Alike s t) (hoff : (reportLost .good (some f) waiting (mapArrival f winner s)).ctl.state ≠ .off) :
    ∃ w, (w = answersTaken f (mapArrival f winner s) ∨ w = mapArrival f winner (answersTaken f s))
        ∧ (blocksTake f v winner waiting o t).req = w.req
        ∧ ofKind .request (blocksTake f v winner waiting o t).raised = ofKind .request w.raised := by
  have of_seen : ∀ {t w : State}, t.seen false true = w.seen false true →
      t.req = w.req ∧ ofKind .request t.raised = ofKind .request w.raised := fun ht =>
    ⟨(congrArg State.req ht :), ofKind_of_seen ht fun e he => by simp [EventRecord.seen, he]⟩
  unfold blocksTake
  split
  · have hlast : ∀ t : State,
        (answersTaken f (requestTaken f (imageArrival f v t))).seen false true = (answersTaken f t).seen false true := fun t => by
      rw [answersTaken_seen, requestTaken_unseen, imageArrival_unseen, ← answersTaken_seen]
    have hmap := reportLost_congr (cls := .good) (frame := some f) (waiting := waiting)
      (mapArrival_congr (f := f) (winner := winner) (h.seen false true).symm) (.inr hoff)
    obtain ⟨hreq, hevents⟩ := of_seen ((hlast _).trans (answersTaken_seen_congr hmap.symm))
    obtain ⟨hreq', hevents'⟩ := answersTaken_congr (f := f) (reportLost_reported hoff)
    exact ⟨_, .inl rfl, hreq.trans hreq', hevents.trans hevents'⟩
  · next hlast =>
    rw [← blocksTake_ctl (v := v) (o := o) h, blocksTake, if_neg hlast] at hoff
    obtain ⟨w, hw, hseen⟩ := blocksBefore_requests (f := f) (v := v) (winner := winner) (o := o) (h.seen false true)
    obtain ⟨hreq, hevents⟩ := of_seen hseen
    have hreported := reportLost_reported hoff
    exact ⟨w, hw, hreported.req.trans hreq, (ofKind_of_raises hreported.raised fun _ he => he.1).trans hevents⟩

end

end Sys2Proof.Machine

namespace Sys2Proof.Machine

/-! ## The answer side, and what it reads of the others (R68 to R74) -/

/-- What an operation leaves of the answer side, and of what that side reads: its unit, the numbers given out, the round, the configuration
and whether the station serves. -/
structure Beside (s t : State) : Prop where
  pub : t.pub = s.pub
  serial : t.serial = s.serial
  round : t.slot.round = s.slot.round
  config : t.ctl.config = s.ctl.config
  serves : t.ctl.state.serves = s.ctl.state.serves
  writes : ofKind .peerWrite t.raised = ofKind .peerWrite s.raised

theorem Beside.trans {s t u : State} (h : Beside s t) (g : Beside t u) : Beside s u :=
  ⟨g.pub.trans h.pub, g.serial.trans h.serial, g.round.trans h.round, g.config.trans h.config, g.serves.trans h.serves,
    g.writes.trans h.writes⟩

theorem Beside.symm {s t : State} (h : Beside s t) : Beside t s :=
  ⟨h.pub.symm, h.serial.symm, h.round.symm, h.config.symm, h.serves.symm, h.writes.symm⟩

theorem Beside.of_frame {s t : State} (h : t.outsideMap = s.outsideMap) (hr : Raises EventRecord.ofArrival s t) : Beside s t :=
  ⟨(congrArg State.pub h :), (congrArg State.serial h :), (congrArg (·.slot.round) h :), (congrArg (·.ctl.config) h :),
    (congrArg (·.ctl.state.serves) h :), ofKind_of_raises hr fun _ he => he.1⟩

theorem Reported.beside {s t : State} (h : Reported s t) : Beside s t :=
  ⟨(congrArg State.pub h.frame :), (congrArg State.serial h.frame :), (congrArg (·.slot.round) h.frame :), h.config, h.serves,
    ofKind_of_raises h.raised fun _ he => he.2⟩

theorem Alike.beside {s t : State} (h : Alike s t) : Beside s t :=
  have hseen := h.seen false false
  ⟨h.pub, h.serial, (congrArg (·.slot.round) hseen :), (congrArg (·.ctl.config) hseen :), (congrArg (·.ctl.state.serves) hseen :),
    h.writes⟩

theorem mapArrival_outsideMap (f : Frame) (winner : Bool) (s : State) : (mapArrival f winner s).outsideMap = s.outsideMap := by
  have heard : (if f.kind = .slotFrame ∧ f.cond.leaving then becomeFree f.slot s else becomeHeard f.slot f.source s).outsideMap
      = s.outsideMap := by
    split <;> exact setSlotState_outsideMap ..
  have counts : (if winner then s else s.modSlot fun u => { u with outOfStep := satInc u.outOfStep }).outsideMap = s.outsideMap := by
    split <;> rfl
  unfold mapArrival
  split
  · rfl
  · split
    · exact heard
    · exact heard
    · exact counts
    · exact counts

theorem imageArrival_outsideMap (f : Frame) (v : Verdict) (s : State) : (imageArrival f v s).outsideMap = s.outsideMap :=
  (congrArg State.outsideMap (imageArrival_outsideImage f v s) :)

/-- An answer changes the request unit and nothing else. -/
theorem answersTaken_frame (f : Frame) (s : State) :
    answersTaken f s = { s with req := (answersTaken f s).req, raised := (answersTaken f s).raised } := by
  unfold answersTaken
  cases f.answer with
  | none => rfl
  | some a =>
    have h := answerArrival_withRequests (u := s) (s := { s with raised := [] }) rfl rfl f.source a
    have hself : s.withRequests { s with raised := [] } = s := by simp [State.withRequests]
    rw [hself] at h
    exact h.trans (congrArg (fun w : State => { s with req := w.req, raised := w.raised }) h.symm :)

theorem answersTaken_beside (f : Frame) (s : State) : Beside s (answersTaken f s) := by
  have hwrites : ofKind .peerWrite (answersTaken f s).raised = ofKind .peerWrite s.raised :=
    ofKind_of_raises (answersTaken_arrives f s) fun _ he => he.1
  rw [answersTaken_frame] at hwrites ⊢
  exact ⟨rfl, rfl, rfl, rfl, rfl, hwrites⟩

/-- A state without the answer side. -/
def State.outsideAnswers (s : State) : State := { s with pub := Publication.reset, serial := 0, raised := [] }

theorem requestArrival_outsideAnswers (n : Nat) (r : RequestSection) (s : State) :
    (requestArrival n r s).outsideAnswers = s.outsideAnswers := by
  have write : ∀ (k code : Nat) (w : Option Word), (applyWrite k n code w s).outsideAnswers = s.outsideAnswers := fun _ _ w => by
    cases w <;> rfl
  unfold requestArrival
  split
  · rfl
  · split
    · split
      · exact write ..
      · rfl
    · split
      · split
        · split
          · rfl
          · split
            · rfl
            · unfold serveRequest
              split
              · exact write ..
              · rfl
              · rfl
        · rfl
      · rfl

theorem requestTaken_outsideAnswers (f : Frame) (s : State) : (requestTaken f s).outsideAnswers = s.outsideAnswers := by
  unfold requestTaken
  cases f.request with
  | none => rfl
  | some r => exact requestArrival_outsideAnswers ..

theorem requestTaken_congr (f : Frame) {s t : State} (h : Beside s t) : Beside (requestTaken f s) (requestTaken f t) := by
  have hs := requestTaken_outsideAnswers f s
  have ht := requestTaken_outsideAnswers f t
  have hctl : ∀ {u w : State}, w.outsideAnswers = u.outsideAnswers → w.ctl = u.ctl := fun h => (congrArg State.ctl h :)
  have hround : ∀ {u w : State}, w.outsideAnswers = u.outsideAnswers → w.slot.round = u.slot.round := fun h => (congrArg (·.slot.round) h :)
  have hanswers : Answers s t (requestTaken f s) (requestTaken f t) := by
    unfold requestTaken
    cases f.request with
    | none => exact .of_silent h.pub h.serial rfl rfl
    | some r => exact requestArrival_answers h.pub h.serial h.round h.config h.serves f.source r
  obtain ⟨hpub, hserial, es, hes, hes', -⟩ := hanswers
  refine ⟨hpub, hserial, ?_, ?_, ?_, ?_⟩
  · rw [hround hs, hround ht, h.round]
  · rw [hctl hs, hctl ht, h.config]
  · rw [hctl hs, hctl ht, h.serves]
  · rw [hes, hes', ofKind_append, ofKind_append, h.writes]

section
variable {f : Frame} {v : Verdict} {winner : Bool} {waiting : List Transmission} {o : Order} {s t : State}

theorem mapArrival_beside : Beside s (mapArrival f winner s) := .of_frame (mapArrival_outsideMap ..) (mapArrival_arrives ..)

theorem imageArrival_beside : Beside s (imageArrival f v s) := .of_frame (imageArrival_outsideMap ..) (imageArrival_arrives ..)

theorem blocksBefore_answers : Beside (requestTaken f s) (blocksBefore f v winner o s) := by
  refine requestTaken_congr f ?_
  have hvalues (s : State) := imageArrival_beside (f := f) (v := v) (s := s)
  have hmap (s : State) := mapArrival_beside (f := f) (winner := winner) (s := s)
  have hanswers := answersTaken_beside f
  cases o.mapBeforeValues <;> cases o.mapBeforeAnswers <;> simp only [if_true, if_false, Bool.false_eq_true]
  · exact ((hvalues _).trans (hanswers _)).trans (hmap _)
  · exact ((hvalues _).trans (hmap _)).trans (hanswers _)
  · exact ((hanswers _).trans (hmap _)).trans (hvalues _)
  · exact ((hmap _).trans (hvalues _)).trans (hanswers _)

/-- The answer side: as it takes the request once the slot map and the reports are through. -/
theorem blocksTake_answers (h : Alike s t) (hoff : (reportLost .good (some f) waiting (mapArrival f winner s)).ctl.state ≠ .off) :
    Beside (requestTaken f (reportLost .good (some f) waiting (mapArrival f winner s))) (blocksTake f v winner waiting o t) := by
  have hmap : Beside s (reportLost .good (some f) waiting (mapArrival f winner s)) :=
    mapArrival_beside.trans (reportLost_reported hoff).beside
  unfold blocksTake
  split
  · have hctl : (reportLost .good (some f) waiting (mapArrival f winner t)).ctl
        = (reportLost .good (some f) waiting (mapArrival f winner s)).ctl :=
      ctl_of_seen (reportLost_congr (mapArrival_congr (h.seen false false)) (.inl ⟨rfl, rfl⟩))
    rw [← hctl] at hoff
    refine (requestTaken_congr f ?_).trans (answersTaken_beside ..)
    exact ((hmap.symm.trans h.beside).trans (mapArrival_beside.trans (reportLost_reported hoff).beside)).trans imageArrival_beside
  · next hlast =>
    rw [← blocksTake_ctl (v := v) (o := o) h, blocksTake, if_neg hlast] at hoff
    exact ((requestTaken_congr f (hmap.symm.trans h.beside)).trans blocksBefore_answers).trans (reportLost_reported hoff).beside

end

end Sys2Proof.Machine

namespace Sys2Proof.Machine

/-! ## Line and slot time while the blocks take an arrival (R12, R38, R52) -/

/-- The line and the slot time stand, and the station does not come to OFF. -/
structure Still (s t : State) : Prop where
  line : t.line = s.line
  counter : t.slot.counter = s.slot.counter
  timer : t.slot.timer = s.slot.timer
  off : t.ctl.state = .off → s.ctl.state = .off

theorem Still.trans {s t u : State} (h : Still s t) (g : Still t u) : Still s u :=
  ⟨g.line.trans h.line, g.counter.trans h.counter, g.timer.trans h.timer, h.off ∘ g.off⟩

theorem Still.of_frame {s t : State} (h : t.outsideMap = s.outsideMap) : Still s t := by
  have hctl : t.ctl = s.ctl := (congrArg State.ctl h :)
  exact ⟨(congrArg State.line h :), (congrArg (·.slot.counter) h :), (congrArg (·.slot.timer) h :), by rw [hctl]; exact id⟩

theorem Reported.still {s t : State} (h : Reported s t) (hoff : t.ctl.state ≠ .off) : Still s t :=
  ⟨(congrArg State.line h.frame :), (congrArg (·.slot.counter) h.frame :), (congrArg (·.slot.timer) h.frame :), fun h => absurd h hoff⟩

theorem answersTaken_still (f : Frame) (s : State) : Still s (answersTaken f s) := by
  rw [answersTaken_frame]
  exact ⟨rfl, rfl, rfl, id⟩

theorem requestTaken_still (f : Frame) (s : State) : Still s (requestTaken f s) := by
  have h := requestTaken_outsideAnswers f s
  have hctl : (requestTaken f s).ctl = s.ctl := (congrArg State.ctl h :)
  exact ⟨(congrArg State.line h :), (congrArg (·.slot.counter) h :), (congrArg (·.slot.timer) h :), by rw [hctl]; exact id⟩

section
variable {f : Frame} {v : Verdict} {winner : Bool} {waiting : List Transmission} {o : Order} {s : State}

theorem mapArrival_still : Still s (mapArrival f winner s) := .of_frame (mapArrival_outsideMap ..)

theorem imageArrival_still : Still s (imageArrival f v s) := .of_frame (imageArrival_outsideMap ..)

theorem blocksBefore_still : Still s (blocksBefore f v winner o s) := by
  have hvalues (s : State) := imageArrival_still (f := f) (v := v) (s := s)
  have hmap (s : State) := mapArrival_still (f := f) (winner := winner) (s := s)
  have hanswers := answersTaken_still f
  refine Still.trans ?_ (requestTaken_still f _)
  cases o.mapBeforeValues <;> cases o.mapBeforeAnswers <;> simp only [if_true, if_false, Bool.false_eq_true]
  · exact ((hvalues _).trans (hanswers _)).trans (hmap _)
  · exact ((hvalues _).trans (hmap _)).trans (hanswers _)
  · exact ((hanswers _).trans (hmap _)).trans (hvalues _)
  · exact ((hmap _).trans (hvalues _)).trans (hanswers _)

theorem afterReports_still : Still s (answersTaken f (requestTaken f (imageArrival f v s))) :=
  (imageArrival_still.trans (requestTaken_still ..)).trans (answersTaken_still ..)

theorem afterReports_ctl : (answersTaken f (requestTaken f (imageArrival f v s))).ctl = s.ctl :=
  (congrArg State.ctl (answersTaken_frame f _) :).trans
    ((congrArg State.ctl (requestTaken_outsideAnswers f _) :).trans (congrArg State.ctl (imageArrival_outsideMap f v s) :))

theorem blocksTake_still (hoff : (blocksTake f v winner waiting o s).ctl.state ≠ .off) : Still s (blocksTake f v winner waiting o s) := by
  unfold blocksTake at hoff ⊢
  split
  · next hfirst =>
    rw [if_pos hfirst, afterReports_ctl] at hoff
    exact (mapArrival_still.trans ((reportLost_reported hoff).still hoff)).trans afterReports_still
  · next hlast =>
    rw [if_neg hlast] at hoff
    exact blocksBefore_still.trans ((reportLost_reported hoff).still hoff)

/-! ### The station come to OFF -/

/-- With no frame being sent and none lost, and once OFF, neither a frame nor slot time. -/
def State.offRests (s : State) : Prop :=
  s.txeOn = false ∧ s.line.lost = [] ∧ (s.ctl.state = .off → s.slot.counter = 0 ∧ s.slot.timer = 0 ∧ s.line.tx = none)

theorem Still.offRests {s t : State} (h : Still s t) (hs : s.offRests) : t.offRests := by
  obtain ⟨htxe, hlost, hrest⟩ := hs
  refine ⟨?_, by rw [h.line, hlost], fun ht => ?_⟩
  · rw [State.txeOn, h.line]
    exact htxe
  · rw [h.counter, h.timer, h.line]
    exact hrest (h.off ht)

theorem enterOff_offRests {s : State} (h : s.txeOn = false) (cause : Nat) : (enterOff cause s).offRests := by
  have htx : (enterOff cause s).line.tx = none := by
    rw [enterOff_line]
    simp only [State.txeOn] at h
    cases hx : s.line.tx with
    | none => simp [lineOff, hx]
    | some x =>
      rw [hx] at h
      simp only [Option.any_some] at h
      simp [lineOff, hx, h]
  exact ⟨by rw [State.txeOn, htx]; rfl, by rw [enterOff_line]; rfl, fun _ => ⟨rfl, rfl, htx⟩⟩

theorem followOwned_offRests {s : State} (hs : s.offRests) : (followOwned s).offRests := by
  by_cases hoff : (followOwned s).ctl.state = .off
  · unfold followOwned at hoff ⊢
    split
    · split
      · exact hs
      · next hst hc => simp [hst, hc, passStation, raiseStation] at hoff
    · split
      · next hst hc => simp [hst, hc, passStation, raiseStation] at hoff
      · exact hs
    · split
      · exact enterOff_offRests hs.1 6
      · exact hs
    all_goals exact hs
  · exact ((followOwned_reported hoff).still hoff).offRests hs

theorem giveUpSlot_still (x : Transmission) (winner : Option Nat) (s : State) : Still s (giveUpSlot x winner s) := by
  cases winner with
  | none => exact (Still.of_frame (setSlotState_outsideMap ..)).trans ⟨rfl, rfl, rfl, id⟩
  | some n => exact .of_frame (setSlotState_outsideMap ..)

theorem reportEnd_offRests {x : Transmission} {cls : ArrivalClass} {frame : Option Frame} {s : State} (hs : s.offRests) :
    (reportEnd x (.lost cls frame) s).offRests := by
  have hraise : ∀ {k : EventKind} {c n d : Nat} {w : Word} {t : State}, t.offRests → (raise k c n d w t).offRests := id
  rw [reportEnd_of_notSent x (by simp)]
  unfold reportToSlots
  split
  · exact hraise ((giveUpSlot_still ..).offRests hs)
  · split
    · exact followOwned_offRests ((Still.of_frame (setSlotState_outsideMap ..)).offRests hs)
    · rw [reportOwned_lost]
      split
      · exact hs
      · exact followOwned_offRests (hraise ((giveUpSlot_still ..).offRests hs))
    all_goals exact hs
  · exact hs

theorem reportLost_offRests {cls : ArrivalClass} {frame : Option Frame} (waiting : List Transmission) {s : State} (hs : s.offRests) :
    (reportLost cls frame waiting s).offRests := foldl_keeps (fun _ _ ht => reportEnd_offRests ht) waiting hs

theorem blocksTake_offRests (hs : s.offRests) : (blocksTake f v winner waiting o s).offRests := by
  unfold blocksTake
  split
  · exact afterReports_still.offRests (reportLost_offRests waiting (mapArrival_still.offRests hs))
  · exact reportLost_offRests waiting (blocksBefore_still.offRests hs)

end

end Sys2Proof.Machine

namespace Sys2Proof.Machine

/-! ## The row in which a GOOD arrival of another station ends (R11, R12, R17) -/

/-- The state in which the blocks take a GOOD arrival: it is counted, and its slot had activity. -/
def arriving (f : Frame) (s : State) : State :=
  { s.afterBit .recessive with
    inArrival := true
    line := { (s.afterBit .recessive).line with receiver := .waiting, good := satInc s.line.good, lost := [] }
    slot := { (s.afterBit .recessive).slot with map := s.slot.map.modify f.slot fun q => { q with activityThis := true } } }

/-- The blocks are through with the arrival. -/
def arrivalOver (s : State) : State :=
  { s with inArrival := false, unitA := { s.unitA with passOver := false }, unitB := { s.unitB with passOver := false } }

theorem closeArrival_good {s : State} {r : Reception} {f : Frame} (hstate : s.ctl.state ≠ .off) (hown : r.own = false)
    (hsource : f.source ≠ s.ctl.config.station) :
    closeArrival r .good (some f) (s.afterBit .recessive)
      = arrivalOver (handArrival f r.bytes.length s.line.lost (arriving f s)) := by
  have hgood : (s.afterBit .recessive).line.good = s.line.good := by
    show (s.line.measure .recessive).good = _
    rw [measure_frame]
  have hlost : (s.afterBit .recessive).line.lost = s.line.lost := measure_lost ..
  have harrived : arrived (some f.slot) (s.afterBit .recessive)
      = { s.afterBit .recessive with
          line := { (s.afterBit .recessive).line with receiver := .waiting }
          slot := { (s.afterBit .recessive).slot with map := s.slot.map.modify f.slot fun q => { q with activityThis := true } } } := by
    rw [arrived_afterBit]
    simp only [if_neg hstate]
  rw [closeArrival_of_other hown]
  show otherArrival .good (some f) r.bytes.length (arrived (some f.slot) (s.afterBit .recessive)) = _
  rw [harrived]
  unfold otherArrival
  dsimp only
  have hsource' : ¬f.source = (s.afterBit .recessive).ctl.config.station := hsource
  rw [if_neg (by exact hsource')]
  simp only [State.modLine, countArrival, hgood, hlost]
  rfl

theorem row_of_goodArrival {s : State} {r : Reception} {f : Frame} (hmid : s.midSlot) (hstate : s.ctl.state ≠ .off)
    (hh : s.line.hold = false) (hr : s.line.receiver = .inside r) (hown : r.own = false) (he : r.almostEnded) (htxe : s.txeOn = false)
    (hc : r.classified s.ctl.config = (.good, some f)) (hsource : f.source ≠ s.ctl.config.station) :
    exec (.arrivalEnd [] .recessive) s
      = .next (finish (arrivalOver (handArrival f r.bytes.length s.line.lost (arriving f s)))) := by
  rw [row_of_arrivalEnd hmid htxe hh hr he, hc, closeArrival_good hstate hown hsource]

/-- Nothing is due in the state in which an arrival ends. -/
theorem nothingDue {s : State} (hmid : s.midSlot) :
    s.due = Due.none ∧ s.unitA.deadlineDue = false ∧ s.unitB.deadlineDue = false := by
  obtain ⟨⟨-, -, hdue, -⟩, -⟩ := hmid
  refine ⟨?_, deadlines_of_nothing hdue⟩
  simp only [State.hasDue, Bool.or_eq_false_iff] at hdue
  simpa using hdue.1.1.1.1

/-! ## The peer unit leaves the other blocks (R79) -/

theorem learnStore_outsidePeers (n : Nat) (a : AnswerSection) (s : State) : (learnStore n a s).outsidePeers = s.outsidePeers := by
  unfold learnStore becomeKnown
  dsimp only
  split
  · rw [outsidePeers_of_image (imageKnown_outsideImage ..)]
    simp
  · simp

theorem learnFetching_outsidePeers (n : Nat) (a : AnswerSection) (s : State) : (learnFetching n a s).outsidePeers = s.outsidePeers := by
  unfold learnFetching learnConflict
  split
  · rw [learnStore_outsidePeers, outsidePeers_of_image (imageCleared_outsideImage ..)]
    simp
  · exact learnStore_outsidePeers ..

theorem settleDiscovery_outsidePeers (n : Nat) (own : Option Nat) (s : State) :
    (settleDiscovery n own s).outsidePeers = s.outsidePeers := by
  unfold settleDiscovery
  split
  · rfl
  · split
    · exact outsidePeers_of_requests (removeRecord_outsideRequests ..)
    · rfl

theorem learnAnswer_outsidePeers (n : Nat) (a : AnswerSection) (own : Option Nat) (s : State) :
    (learnAnswer n a own s).outsidePeers = s.outsidePeers := by
  refine overOwn_outsidePeers n s ?_
  split
  · rfl
  · rw [settleDiscovery_outsidePeers, learnFetching_outsidePeers]
  · rw [settleDiscovery_outsidePeers, learnFetching_outsidePeers, modPeer_outsidePeers]
  · rw [settleDiscovery_outsidePeers, learnFetching_outsidePeers, imageRetried_outsidePeers, modPeer_outsidePeers]

theorem takeCondition_outsidePeers (n : Nat) (c : Cond) (s : State) : (takeCondition n c s).outsidePeers = s.outsidePeers := by
  refine overOwn_outsidePeers n s ?_
  dsimp only
  split
  · rfl
  · simp

theorem checkLayout_outsidePeers (n : Nat) (f : Frame) (s : State) : (checkLayout n f s).outsidePeers = s.outsidePeers := by
  refine overOwn_outsidePeers n s ?_
  dsimp only
  split
  · rw [outsidePeers_of_image (imageCleared_outsideImage ..)]
    simp
  · rfl

theorem peerArrival_outsidePeers (f : Frame) (s : State) : (peerArrival f s).outsidePeers = s.outsidePeers := by
  have hsequence : (takeSequence f.source f.sequence s).outsidePeers = s.outsidePeers := modPeer_outsidePeers ..
  have hframe : (if f.kind = .slotFrame then checkLayout f.source f (takeCondition f.source f.cond (takeSequence f.source f.sequence s))
      else takeSequence f.source f.sequence s).outsidePeers = s.outsidePeers := by
    split
    · rw [checkLayout_outsidePeers, takeCondition_outsidePeers, hsequence]
    · exact hsequence
  unfold peerArrival
  split
  · rfl
  · dsimp only
    split
    · split
      · rw [learnAnswer_outsidePeers, hframe]
      · exact hframe
    · exact hframe

/-! ## The adoption of the alignment (R17, R18) -/

/-- The alignment of an arrival. -/
def SlotUnit.alignTo (slot bytes : Nat) (u : SlotUnit) : SlotUnit :=
  { u with counter := slot, timer := 16 + BitVec.ofNat 10 (10 * bytes + 12) }

/-- Without a wrap the adoption is the alignment alone. -/
theorem adopt_of_noWrap {s : State} {slot : Nat} (bytes : Nat) (hwrap : forwardWrap s.slot.counter slot s.ctl.config.slots = false)
    (hdue : s.due = Due.none) : adopt slot bytes s = { s with slot := s.slot.alignTo slot bytes } := by
  simp only [adopt, hwrap, Bool.false_eq_true, if_false]
  have hstart : ({ s.due with start := false } : Due) = s.due := by rw [hdue]; rfl
  simp only [State.modDue, State.modSlot, hstart]
  rfl

theorem earlyReactions_of_nothing {s : State} (hdue : s.due = Due.none) (ha : s.unitA.deadlineDue = false)
    (hb : s.unitB.deadlineDue = false) : earlyReactions s = s := by
  have h1 : takeListen s = s := by simp [takeListen, hdue, Due.none]
  have h2 : takeLeaving s = s := by simp [takeLeaving, hdue, Due.none]
  have h3 : takeHost s = s := by simp [takeHost, hdue, Due.none]
  have h4 : takeAges s = s := by simp [takeAges, hdue, Due.none]
  have h5 : takeWaits s = s := by simp [takeWaits, hdue, Due.none]
  have h6 : takeDeadline s = s := by simp [takeDeadline, takeUnitDeadline, State.unit, ha, hb]
  have h7 : takePeriods s = s := by simp [takePeriods, hdue, Due.none]
  simp [earlyReactions, h1, h2, h3, h4, h5, h6, h7]

end Sys2Proof.Machine

namespace Sys2Proof.Machine

/-! ## A GOOD arrival without a wrap (R12, R17) -/

theorem Alike.refl (s : State) : Alike s s := ⟨fun _ _ => rfl, rfl, rfl, rfl⟩

theorem peerArrival_alike {s t : State} (f : Frame) (h : Alike s t) : Alike (peerArrival f s) (peerArrival f t) where
  seen i q := by rw [peerArrival_seen, peerArrival_seen, h.seen]
  pub := (congrArg State.pub (peerArrival_outsidePeers f t) :).trans
    (h.pub.trans (congrArg State.pub (peerArrival_outsidePeers f s) :).symm)
  serial := (congrArg State.serial (peerArrival_outsidePeers f t) :).trans
    (h.serial.trans (congrArg State.serial (peerArrival_outsidePeers f s) :).symm)
  writes := (ofKind_of_raises (peerArrival_arrives f t) fun _ he => he.1).trans
    (h.writes.trans (ofKind_of_raises (peerArrival_arrives f s) fun _ he => he.1).symm)

/-- A state with its slot time aligned to an arrival. -/
def State.alignTo (slot bytes : Nat) (s : State) : State := { s with slot := s.slot.alignTo slot bytes }

theorem alignTo_alike (slot bytes : Nat) (s : State) : Alike s (s.alignTo slot bytes) := ⟨fun _ _ => rfl, rfl, rfl, rfl⟩

theorem peerArrival_still (f : Frame) (s : State) : Still s (peerArrival f s) :=
  .of_frame (outsideMap_of_peers (peerArrival_outsidePeers f s))

/-- What is seen of a state, with the slot time, is its slot unit. -/
theorem slot_of_core {s t : State} (h : t.seen false false = s.seen false false) (hcounter : t.slot.counter = s.slot.counter)
    (htimer : t.slot.timer = s.slot.timer) : t.slot = s.slot := by
  have hslot : { t.slot with counter := 0, timer := 0 } = { s.slot with counter := 0, timer := 0 } := (congrArg State.slot h :)
  calc t.slot = { { t.slot with counter := 0, timer := 0 } with counter := t.slot.counter, timer := t.slot.timer } := rfl
    _ = { { s.slot with counter := 0, timer := 0 } with counter := s.slot.counter, timer := s.slot.timer } := by
      rw [hslot, hcounter, htimer]
    _ = s.slot := rfl

theorem slot_alignTo_of_core {s t : State} (h : t.seen false false = s.seen false false) (slot bytes : Nat) :
    t.slot.alignTo slot bytes = s.slot.alignTo slot bytes :=
  (congrArg (fun u : State => u.slot.alignTo slot bytes) h :)

/-- A forward wrap of this arrival's alignment. -/
def wraps (f : Frame) (s : State) : Prop := adopts s = true ∧ forwardWrap s.slot.counter f.slot s.ctl.config.slots = true

theorem adoptedEarly_of_noWrap {f : Frame} {s : State} (bytes : Nat) (hwrap : ¬wraps f s) (hdue : s.due = Due.none)
    (ha : s.unitA.deadlineDue = false) (hb : s.unitB.deadlineDue = false) :
    adoptedEarly f bytes s = if adopts s ∧ s.order.adoptFirst then s.alignTo f.slot bytes else s := by
  unfold adoptedEarly
  split
  · next h =>
    rw [adopt_of_noWrap bytes (Bool.eq_false_iff.mpr fun hw => hwrap ⟨h.1, hw⟩) hdue]
    exact earlyReactions_of_nothing (s := s.alignTo f.slot bytes) hdue ha hb
  · rfl

theorem adoptedLate_of_noWrap {f : Frame} {s t : State} (bytes : Nat) (hwrap : ¬wraps f s) (hdue : t.due = Due.none)
    (hcounter : adopts s = true → ¬s.order.adoptFirst = true → t.ctl.state ≠ .off → t.slot.counter = s.slot.counter)
    (hconfig : t.ctl.config = s.ctl.config) :
    adoptedLate f bytes s t = if adopts s ∧ ¬s.order.adoptFirst ∧ t.ctl.state ≠ .off then t.alignTo f.slot bytes else t := by
  unfold adoptedLate
  split
  · next h =>
    obtain ⟨hadopts, hlate, hoff⟩ := h
    refine adopt_of_noWrap bytes ?_ hdue
    rw [hcounter hadopts hlate hoff, hconfig]
    exact Bool.eq_false_iff.mpr fun hw => hwrap ⟨hadopts, hw⟩
  · rfl

end Sys2Proof.Machine

namespace Sys2Proof.Machine

/-! ## What handing a GOOD arrival to the blocks comes to, without a wrap (R12, R17) -/

/-- Whether the arrival is the winner's of a transmission this station lost in its slot. -/
def winsOver (f : Frame) (waiting : List Transmission) : Bool := waiting.any fun x => x.slot == f.slot

/-- The peer unit, the slot map and the LOST reports have taken the arrival. -/
def reportedAfter (f : Frame) (waiting : List Transmission) (s : State) : State :=
  reportLost .good (some f) waiting (mapArrival f (winsOver f waiting) (peerArrival f s))

/-- All the blocks have taken the arrival, from a state the peer unit has left. -/
def takenBy (f : Frame) (waiting : List Transmission) (s t : State) : State :=
  blocksTake f ((s.peer f.source).verdict f) (winsOver f waiting) waiting s.order t

theorem alignTo_of_aligned {u : SlotUnit} {slot bytes : Nat} (hcounter : u.counter = slot)
    (htimer : u.timer = 16 + BitVec.ofNat 10 (10 * bytes + 12)) : u.alignTo slot bytes = u := by
  rw [SlotUnit.alignTo, ← hcounter, ← htimer]

section
variable {f : Frame} {waiting : List Transmission} {s : State}

theorem reportedAfter_still (hoff : (reportedAfter f waiting s).ctl.state ≠ .off) : Still s (reportedAfter f waiting s) :=
  ((peerArrival_still ..).trans mapArrival_still).trans ((reportLost_reported hoff).still hoff)

theorem beforeReports_frame : (mapArrival f (winsOver f waiting) (peerArrival f s)).outsideMap = s.outsideMap :=
  (mapArrival_outsideMap ..).trans (outsideMap_of_peers (peerArrival_outsidePeers f s))

theorem reportedAfter_due (hoff : (reportedAfter f waiting s).ctl.state ≠ .off) : (reportedAfter f waiting s).due = s.due :=
  (congrArg State.due (reportLost_reported hoff).frame :).trans (congrArg State.due beforeReports_frame :)

theorem reportedAfter_trig (hoff : (reportedAfter f waiting s).ctl.state ≠ .off) : (reportedAfter f waiting s).trig = s.trig :=
  (congrArg State.trig (reportLost_reported hoff).frame :).trans (congrArg State.trig beforeReports_frame :)

theorem reportedAfter_config : (reportedAfter f waiting s).ctl.config = s.ctl.config :=
  (reportLost_kept ..).config.trans (congrArg (·.ctl.config) beforeReports_frame :)

theorem reportedAfter_offRests (hs : s.offRests) : (reportedAfter f waiting s).offRests :=
  reportLost_offRests waiting (mapArrival_still.offRests ((peerArrival_still ..).offRests hs))

theorem takenBy_core {t : State} (h : Alike (peerArrival f s) t) :
    (takenBy f waiting s t).seen false false = (reportedAfter f waiting s).seen false false := blocksTake_core h

theorem takenBy_still {t : State} (h : Alike (peerArrival f s) t) (hoff : (reportedAfter f waiting s).ctl.state ≠ .off) :
    Still t (takenBy f waiting s t) :=
  blocksTake_still fun ht => hoff ((congrArg StationControl.state (ctl_of_seen (takenBy_core h))).symm.trans ht)

/-- Outside OFF the blocks take the arrival from what the peer unit left, and slot time is aligned where the alignment is adopted. -/
theorem handArrival_of_noWrap (bytes : Nat) (hwrap : ¬wraps f s) (hdue : s.due = Due.none) (ha : s.unitA.deadlineDue = false)
    (hb : s.unitB.deadlineDue = false) (hoff : (reportedAfter f waiting s).ctl.state ≠ .off) :
    ∃ t, Alike (peerArrival f s) t
      ∧ handArrival f bytes waiting s
        = { takenBy f waiting s t with
            slot :=
              if adopts s then (reportedAfter f waiting s).slot.alignTo f.slot bytes else (reportedAfter f waiting s).slot } := by
  have hstill := reportedAfter_still hoff
  have hctl {t : State} (h : Alike (peerArrival f s) t) : (takenBy f waiting s t).ctl = (reportedAfter f waiting s).ctl :=
    ctl_of_seen (takenBy_core h)
  have late {t : State} (h : Alike (peerArrival f s) t)
      (hcounter : ¬s.order.adoptFirst = true → t.slot.counter = s.slot.counter) :
      adoptedLate f bytes s (takenBy f waiting s t)
        = if adopts s ∧ ¬s.order.adoptFirst then (takenBy f waiting s t).alignTo f.slot bytes else takenBy f waiting s t := by
    rw [adoptedLate_of_noWrap bytes hwrap]
    · simp [hctl h, hoff]
    · have hdue' : (takenBy f waiting s t).due = (reportedAfter f waiting s).due := (congrArg State.due (takenBy_core h) :)
      rw [hdue', reportedAfter_due hoff, hdue]
    · intro _ hlate _
      rw [(takenBy_still h hoff).counter, hcounter hlate]
    · rw [hctl h, reportedAfter_config]
  have hself (t : State) : { takenBy f waiting s t with slot := (takenBy f waiting s t).slot } = takenBy f waiting s t := rfl
  rw [handArrival_eq, adoptedEarly_of_noWrap bytes hwrap hdue ha hb]
  by_cases hadopts : adopts s = true
  · by_cases hfirst : s.order.adoptFirst = true
    · have halike : Alike (peerArrival f s) (peerArrival f (s.alignTo f.slot bytes)) := peerArrival_alike f (alignTo_alike ..)
      refine ⟨_, halike, ?_⟩
      rw [if_pos ⟨hadopts, hfirst⟩]
      refine (late halike fun h => absurd hfirst h).trans ?_
      have htime := (peerArrival_still f (s.alignTo f.slot bytes)).trans (takenBy_still halike hoff)
      have hslot : (takenBy f waiting s (peerArrival f (s.alignTo f.slot bytes))).slot
          = (reportedAfter f waiting s).slot.alignTo f.slot bytes := by
        rw [← slot_alignTo_of_core (takenBy_core halike) f.slot bytes]
        exact (alignTo_of_aligned htime.counter htime.timer).symm
      rw [if_neg fun h => h.2 hfirst, if_pos hadopts, ← hslot]
    · refine ⟨_, .refl _, ?_⟩
      rw [if_neg fun h => hfirst h.2]
      refine (late (.refl _) fun _ => (peerArrival_still f s).counter).trans ?_
      rw [if_pos ⟨hadopts, hfirst⟩, if_pos hadopts, ← slot_alignTo_of_core (takenBy_core (.refl _)) f.slot bytes]
      rfl
  · refine ⟨_, .refl _, ?_⟩
    rw [if_neg fun h => hadopts h.1]
    refine (late (.refl _) fun _ => (peerArrival_still f s).counter).trans ?_
    have htime := (peerArrival_still f s).trans (takenBy_still (waiting := waiting) (.refl _) hoff)
    rw [if_neg fun h => hadopts h.1, if_neg hadopts,
      ← slot_of_core (takenBy_core (.refl _)) (htime.counter.trans hstill.counter.symm) (htime.timer.trans hstill.timer.symm)]

/-- Where the reports take the station to OFF, no alignment is adopted. -/
theorem handArrival_of_noWrap_off (bytes : Nat) (hwrap : ¬wraps f s) (hdue : s.due = Due.none) (ha : s.unitA.deadlineDue = false)
    (hb : s.unitB.deadlineDue = false) (hs : s.offRests) (hstate : s.ctl.state ≠ .off)
    (hoff : (reportedAfter f waiting s).ctl.state = .off) :
    ∃ t, Alike (peerArrival f s) t ∧ handArrival f bytes waiting s = takenBy f waiting s t
      ∧ (takenBy f waiting s t).slot = (reportedAfter f waiting s).slot ∧ (takenBy f waiting s t).offRests := by
  obtain ⟨-, -, hrest⟩ := reportedAfter_offRests (f := f) (waiting := waiting) hs
  obtain ⟨hcounter, htimer, -⟩ := hrest hoff
  have takes {t : State} (h : Alike (peerArrival f s) t) (ht : t.offRests) :
      adoptedLate f bytes s (takenBy f waiting s t) = takenBy f waiting s t
        ∧ (takenBy f waiting s t).slot = (reportedAfter f waiting s).slot ∧ (takenBy f waiting s t).offRests := by
    have hcore := takenBy_core (waiting := waiting) h
    have hoff' : (takenBy f waiting s t).ctl.state = .off := by rw [ctl_of_seen hcore, hoff]
    have hrests : (takenBy f waiting s t).offRests := blocksTake_offRests ht
    obtain ⟨-, -, hrest'⟩ := hrests
    obtain ⟨hcounter', htimer', -⟩ := hrest' hoff'
    exact ⟨if_neg fun h => h.2.2 hoff', slot_of_core hcore (by rw [hcounter, hcounter']) (by rw [htimer, htimer']), blocksTake_offRests ht⟩
  have haligned : (s.alignTo f.slot bytes).offRests := by
    obtain ⟨htxe, hlost, -⟩ := hs
    exact ⟨htxe, hlost, fun h => absurd h hstate⟩
  rw [handArrival_eq, adoptedEarly_of_noWrap bytes hwrap hdue ha hb]
  split
  · have halike : Alike (peerArrival f s) (peerArrival f (s.alignTo f.slot bytes)) := peerArrival_alike f (alignTo_alike ..)
    exact ⟨_, halike, takes halike ((peerArrival_still ..).offRests haligned)⟩
  · exact ⟨_, .refl _, takes (.refl _) ((peerArrival_still ..).offRests hs)⟩

end

end Sys2Proof.Machine

namespace Sys2Proof.Machine

/-! ## The row of a GOOD arrival without a wrap, block by block (R12) -/

/-- Once the blocks are through and the step ends, the events raised are in the queue, those of each kind in their order. -/
theorem finish_arrivalOver_takes {h : State} (hstations : ∀ e ∈ h.raised, e.kind = .station → e.block = 2) :
    ∃ es, (finish (arrivalOver h)).host = es.foldl enterEvent h.host ∧ ∀ k, ofKind k es = ofKind k h.raised := by
  refine ⟨_, finish_host (arrivalOver h), fun k => ?_⟩
  by_cases hk : k = .station
  · subst hk
    exact interleave_stationEvents _ _ hstations
  · exact interleave_ofKind hk ..

/-- The step's end and the arrival's leave the blocks as they are, but for the units' memory of an entry passed over. -/
theorem finish_arrivalOver_frame (h : State) :
    finish (arrivalOver h)
      = { h with
          inArrival := false, unitA := { h.unitA with passOver := false }, unitB := { h.unitB with passOver := false }
          host := (finish (arrivalOver h)).host, raised := [], order := (finish (arrivalOver h)).order, freeCount := h.freeCount + 1 } :=
  finish_frame (arrivalOver h)

theorem followOwned_host (s : State) : (followOwned s).host = s.host := by
  unfold followOwned
  split
  · split <;> rfl
  · split <;> rfl
  · split
    · exact enterOff_host 6 s
    · rfl
  all_goals rfl

theorem giveUpSlot_host (x : Transmission) (winner : Option Nat) (s : State) : (giveUpSlot x winner s).host = s.host := by
  cases winner with
  | none => exact (congrArg State.host (setSlotState_outsideMap ..) :)
  | some n => exact (congrArg State.host (setSlotState_outsideMap ..) :)

/-- The event queue takes what the reports raise when the step ends, and not before. -/
theorem reportLost_host (cls : ArrivalClass) (frame : Option Frame) (waiting : List Transmission) (s : State) :
    (reportLost cls frame waiting s).host = s.host := by
  refine foldl_keeps (P := fun t => t.host = s.host) (fun t x ht => Eq.trans ?_ ht) waiting rfl
  rw [reportEnd_of_notSent x (by simp)]
  unfold reportToSlots
  split
  · exact giveUpSlot_host ..
  · split
    · exact (followOwned_host _).trans (congrArg State.host (setSlotState_outsideMap ..) :)
    · rw [reportOwned_lost]
      split
      · rfl
      · exact (followOwned_host _).trans (giveUpSlot_host ..)
    all_goals rfl
  · rfl

section
variable {s : State} {f : Frame} {bytes : Nat}

theorem arriving_offRests (hstate : s.ctl.state ≠ .off) (htxe : s.txeOn = false) : (arriving f s).offRests := by
  refine ⟨?_, rfl, (absurd · hstate)⟩
  show (s.line.measure .recessive).tx.any _ = false
  rw [measure_tx]
  exact htxe

theorem adopts_arriving (hstate : s.ctl.state ≠ .off) : adopts (arriving f s) = true ↔ s.line.tx = none := by
  have htx : (arriving f s).line.tx = s.line.tx := measure_tx ..
  have hctl : (arriving f s).ctl = s.ctl := rfl
  rw [adopts, htx, hctl]
  simp [hstate]

theorem reportedAfter_arrives (waiting : List Transmission) : Raises EventRecord.ofArrival s (reportedAfter f waiting s) :=
  ((peerArrival_arrives f s).trans (mapArrival_arrives f _ _)).trans (reportLost_arrives .good (some f) waiting _)

/-- The STATION events of an arrival are station control's. -/
theorem takenBy_stations {waiting : List Transmission} {t : State} (h : Alike (peerArrival f s) t) (hraised : s.raised = []) :
    ∀ e ∈ (takenBy f waiting s t).raised, e.kind = .station → e.block = 2 := by
  obtain ⟨es, hes, hall⟩ := reportedAfter_arrives (s := s) (f := f) waiting
  have hfilter : (takenBy f waiting s t).raised.filter (EventRecord.seen false false) = es.filter (EventRecord.seen false false) := by
    rw [← List.nil_append es, ← hraised, ← hes]
    exact (congrArg State.raised (takenBy_core h) :)
  intro e he hk
  have hmem : e ∈ es.filter (EventRecord.seen false false) := by
    rw [← hfilter]
    exact List.mem_filter.mpr ⟨he, by simp [EventRecord.seen, hk]⟩
  exact (hall e (List.mem_of_mem_filter hmem)).2 hk

/-- The blocks other than the image unit, the request unit and the answer side after the arrival. -/
theorem goodArrival_blocks {waiting : List Transmission} {t : State} (hmid : s.midSlot) (hstate : s.ctl.state ≠ .off)
    (hwrap : ¬wraps f (arriving f s)) (hoff : (reportedAfter f waiting (arriving f s)).ctl.state ≠ .off)
    (ht : t = finish (arrivalOver (handArrival f bytes waiting (arriving f s)))) :
    let n := reportedAfter f waiting (arriving f s)
    t.ctl = n.ctl ∧ t.peers = n.peers ∧ t.slot = (if s.line.tx = none then n.slot.alignTo f.slot bytes else n.slot)
      ∧ t.line = { (arriving f s).line with tx := s.line.tx } ∧ t.trig = s.trig ∧ t.due = Due.none := by
  obtain ⟨hdue, ha, hb⟩ := nothingDue hmid
  obtain ⟨u, hu, hhand⟩ := handArrival_of_noWrap (s := arriving f s) bytes hwrap hdue ha hb hoff
  have hcore := takenBy_core (waiting := waiting) hu
  have hline : (takenBy f waiting (arriving f s) u).line = (arriving f s).line :=
    (congrArg State.line hcore :).trans (reportedAfter_still hoff).line
  have htx : (arriving f s).line.tx = s.line.tx := measure_tx ..
  rw [ht, hhand, finish_arrivalOver_frame]
  refine ⟨(ctl_of_seen hcore :), (congrArg State.peers hcore :), ?_, ?_, ?_, ?_⟩
  · simp only [adopts_arriving hstate]
  · rw [← htx]
    exact hline
  · exact (congrArg State.trig hcore :).trans (reportedAfter_trig hoff)
  · exact (congrArg State.due hcore :).trans ((reportedAfter_due hoff).trans hdue)

/-- The three moments at which the image unit may take an arrival, once the peer unit has. -/
def valuesTaken (f : Frame) (waiting : List Transmission) (s v : State) : Prop :=
  let values := imageArrival f ((s.peer f.source).verdict f)
  let map := mapArrival f (winsOver f waiting)
  let reports := reportLost .good (some f) waiting
  let taken := peerArrival f s
  v = values (reports (map taken)) ∨ v = reports (values (map taken)) ∨ v = reports (map (values taken))

/-- The two moments at which the request unit may take an arrival, once the peer unit has. -/
def answerMoments (f : Frame) (waiting : List Transmission) (s w : State) : Prop :=
  let map := mapArrival f (winsOver f waiting)
  let taken := peerArrival f s
  w = answersTaken f (map taken) ∨ w = map (answersTaken f taken)

/-- The image unit, the request unit, the answer side and the events after the arrival. -/
theorem goodArrival_takers {waiting : List Transmission} {t : State} (hmid : s.midSlot)
    (hwrap : ¬wraps f (arriving f s)) (hoff : (reportedAfter f waiting (arriving f s)).ctl.state ≠ .off)
    (ht : t = finish (arrivalOver (handArrival f bytes waiting (arriving f s)))) :
    let n := reportedAfter f waiting (arriving f s)
    t.pub = (requestTaken f n).pub ∧ t.serial = (requestTaken f n).serial
      ∧ ∃ v w : State, valuesTaken f waiting (arriving f s) v ∧ answerMoments f waiting (arriving f s) w
        ∧ t.image = v.image ∧ t.unitA = { v.unitA with passOver := false } ∧ t.unitB = { v.unitB with passOver := false }
        ∧ t.called = v.called ∧ t.began = v.began ∧ t.req = w.req
        ∧ s.takesEvents t fun es =>
            (∀ kind ∈ [EventKind.peer, .slot, .station], ofKind kind es = ofKind kind n.raised)
              ∧ (∀ kind ∈ [EventKind.entry, .watch, .snapshot], ofKind kind es = ofKind kind v.raised)
              ∧ ofKind .request es = ofKind .request w.raised
              ∧ ofKind .peerWrite es = ofKind .peerWrite (requestTaken f n).raised := by
  obtain ⟨hdue, ha, hb⟩ := nothingDue hmid
  obtain ⟨u, hu, hhand⟩ := handArrival_of_noWrap (s := arriving f s) bytes hwrap hdue ha hb hoff
  have hcore := takenBy_core (waiting := waiting) hu
  obtain ⟨v, hv, hvseen⟩ := blocksTake_image (v := ((arriving f s).peer f.source).verdict f) (o := (arriving f s).order) hu hoff
  obtain ⟨w, hw, hwreq, hwraised⟩ := blocksTake_requests (v := ((arriving f s).peer f.source).verdict f) (o := (arriving f s).order) hu hoff
  have hanswers := blocksTake_answers (v := ((arriving f s).peer f.source).verdict f) (o := (arriving f s).order) hu hoff
  have hraised : (handArrival f bytes waiting (arriving f s)).raised = (takenBy f waiting (arriving f s) u).raised := by rw [hhand]
  have hhost : (handArrival f bytes waiting (arriving f s)).host = s.host := by
    rw [hhand]
    exact (congrArg State.host hcore :).trans ((reportLost_host ..).trans (congrArg State.host beforeReports_frame :))
  obtain ⟨es, hes, hkinds⟩ := finish_arrivalOver_takes (h := handArrival f bytes waiting (arriving f s)) fun e he =>
    takenBy_stations hu (hmid.1.2.1 : s.raised = []) e (hraised ▸ he)
  have hframe := finish_arrivalOver_frame (handArrival f bytes waiting (arriving f s))
  have himage : t.image = v.image ∧ t.unitA = { v.unitA with passOver := false } ∧ t.unitB = { v.unitB with passOver := false }
      ∧ t.called = v.called ∧ t.began = v.began := by
    rw [ht, hframe, hhand]
    exact ⟨(congrArg State.image hvseen :), (congrArg (fun u : State => { u.unitA with passOver := false }) hvseen :),
      (congrArg (fun u : State => { u.unitB with passOver := false }) hvseen :), (congrArg State.called hvseen :),
      (congrArg State.began hvseen :)⟩
  obtain ⟨himage, hunitA, hunitB, hcalled, hbegan⟩ := himage
  refine ⟨?_, ?_, v, w, hv, hw, himage, hunitA, hunitB, hcalled, hbegan, ?_, es, ?_, ?_, ?_, ?_, ?_⟩
  · rw [ht, hframe, hhand]
    exact hanswers.pub
  · rw [ht, hframe, hhand]
    exact hanswers.serial
  · rw [ht, hframe, hhand]
    exact hwreq
  · rw [ht, hes, hhost]
  · intro kind hkind
    rw [hkinds, hraised]
    refine ofKind_of_seen hcore fun e he => ?_
    subst he
    revert hkind
    simp only [List.mem_cons, List.not_mem_nil, or_false]
    rintro (h | h | h) <;> simp [EventRecord.seen, h]
  · intro kind hkind
    rw [hkinds, hraised]
    refine ofKind_of_seen hvseen fun e he => ?_
    subst he
    revert hkind
    simp only [List.mem_cons, List.not_mem_nil, or_false]
    rintro (h | h | h) <;> simp [EventRecord.seen, h]
  · rw [hkinds, hraised]
    exact hwraised
  · rw [hkinds, hraised]
    exact hanswers.writes

/-- The station come to OFF by the reports of the arrival. -/
theorem goodArrival_off {waiting : List Transmission} {t : State} (hmid : s.midSlot) (hstate : s.ctl.state ≠ .off) (htxe : s.txeOn = false)
    (hwrap : ¬wraps f (arriving f s)) (hoff : (reportedAfter f waiting (arriving f s)).ctl.state = .off)
    (ht : t = finish (arrivalOver (handArrival f bytes waiting (arriving f s)))) :
    let n := reportedAfter f waiting (arriving f s)
    t.ctl = n.ctl ∧ t.peers = n.peers ∧ t.slot = n.slot ∧ t.line.tx = none ∧ t.line.lost = []
      ∧ s.takesEvents t fun es => ofKind .station es = ofKind .station n.raised := by
  obtain ⟨hdue, ha, hb⟩ := nothingDue hmid
  obtain ⟨u, hu, hhand, hslot, hrests⟩ :=
    handArrival_of_noWrap_off (s := arriving f s) bytes hwrap hdue ha hb (arriving_offRests hstate htxe) hstate hoff
  have hcore := takenBy_core (waiting := waiting) hu
  obtain ⟨-, hlost, hrest⟩ := hrests
  obtain ⟨-, -, htx⟩ := hrest (by rw [ctl_of_seen hcore, hoff])
  have hhost : (takenBy f waiting (arriving f s) u).host = s.host :=
    (congrArg State.host hcore :).trans ((reportLost_host ..).trans (congrArg State.host beforeReports_frame :))
  obtain ⟨es, hes, hkinds⟩ := finish_arrivalOver_takes (h := handArrival f bytes waiting (arriving f s)) fun e he =>
    takenBy_stations hu (hmid.1.2.1 : s.raised = []) e (hhand ▸ he)
  have hframe := finish_arrivalOver_frame (handArrival f bytes waiting (arriving f s))
  refine ⟨?_, ?_, ?_, ?_, ?_, es, ?_, ?_⟩
  · rw [ht, hframe, hhand]
    exact (ctl_of_seen hcore :)
  · rw [ht, hframe, hhand]
    exact (congrArg State.peers hcore :)
  · rw [ht, hframe, hhand]
    exact hslot
  · rw [ht, hframe, hhand]
    exact htx
  · rw [ht, hframe, hhand]
    exact hlost
  · rw [ht, hes, hhand, hhost]
  · show ofKind .station es = _
    rw [hkinds, hhand]
    exact ofKind_of_seen hcore fun e he => by simp [EventRecord.seen, he]

end

end Sys2Proof.Machine

namespace Sys2Proof.Machine

/-! ## The sequence taken from a peer stands (R79, R83) -/

/-- An operation that leaves the sequence last taken from a peer. -/
def LeavesSequence (n : Nat) (g : State → State) : Prop := ∀ s, ((g s).peer n).lastSequence = (s.peer n).lastSequence

section
variable {n : Nat}

theorem LeavesSequence.comp {f g : State → State} (hf : LeavesSequence n f) (hg : LeavesSequence n g) :
    LeavesSequence n fun s => f (g s) := fun s => (hf _).trans (hg s)

theorem LeavesSequence.ite {c : State → Prop} [∀ s, Decidable (c s)] {f g : State → State} (hf : LeavesSequence n f)
    (hg : LeavesSequence n g) : LeavesSequence n fun s => if c s then f s else g s := fun s => by
  dsimp only
  split
  · exact hf s
  · exact hg s

theorem leavesSequence_of_peers {g : State → State} (h : ∀ s, (g s).peers = s.peers) : LeavesSequence n g := fun s => by
  rw [State.peer, State.peer, h]

theorem leavesSequence_of_image {g : State → State} (h : ∀ s, (g s).outsideImage = s.outsideImage) : LeavesSequence n g :=
  leavesSequence_of_peers fun s => (congrArg State.peers (h s) :)

theorem leavesSequence_of_requests {g : State → State} (h : ∀ s, (g s).outsideRequests = s.outsideRequests) : LeavesSequence n g :=
  leavesSequence_of_peers fun s => (congrArg State.peers (h s) :)

theorem modPeer_leavesSequence {f : PeerRecord → PeerRecord} (h : ∀ p, (f p).lastSequence = p.lastSequence) (m : Nat) :
    LeavesSequence n (State.modPeer m f) := fun s => by
  unfold State.modPeer
  split
  · rfl
  · simp only [State.peer, List.getD_eq_getElem?_getD, List.getElem?_modify]
    split
    · cases s.peers[n - 1]? with
      | none => rfl
      | some p => exact h p
    · simp

theorem modPeer_leavesSequence_of_ne {m : Nat} (hn : 1 ≤ n) (hm : m ≠ n) (f : PeerRecord → PeerRecord) :
    LeavesSequence n (State.modPeer m f) := fun s => by
  unfold State.modPeer
  split
  · rfl
  · next h =>
    have hne : m - 1 ≠ n - 1 := by
      have : m ≠ 0 := fun h0 => h (.inl h0)
      omega
    simp [State.peer, List.getD_eq_getElem?_getD, hne]

theorem overOwn_leavesSequence {g : State → State} (hg : LeavesSequence n g) (m : Nat) : LeavesSequence n (overOwn m g) :=
  LeavesSequence.ite (fun _ => rfl) hg

theorem becomePresent_leavesSequence (m : Nat) : LeavesSequence n (becomePresent m) := fun s => by
  have hrecord : LeavesSequence n (State.modPeer m fun p =>
      let p := { p with presence := .present }
      if p.catalogue = .failed then { p.forget with catalogue := .fetching } else p) :=
    modPeer_leavesSequence (fun p => by dsimp only; split <;> rfl) m
  refine ((leavesSequence_of_image (imagePresent_outsideImage m)) _).trans ?_
  split
  · exact ((leavesSequence_of_image (imageRetried_outsideImage m)) _).trans (hrecord s)
  · exact hrecord s

theorem gainSlot_leavesSequence (m : Nat) : LeavesSequence n (gainSlot m) := by
  refine overOwn_leavesSequence (fun s => ?_) m
  have hcount : LeavesSequence n (State.modPeer m fun p => { p with heardSlots := p.heardSlots + 1 }) :=
    modPeer_leavesSequence (by intro; rfl) m
  dsimp only
  split
  · exact (becomePresent_leavesSequence m _).trans (hcount s)
  · exact hcount s

theorem becomeAbsent_leavesSequence {m : Nat} (hn : 1 ≤ n) (hm : m ≠ n) : LeavesSequence n (becomeAbsent m) := fun s =>
  ((leavesSequence_of_requests (requestsAbsent_outsideRequests m)) _).trans
    (((leavesSequence_of_image (imageAbsent_outsideImage m)) _).trans (modPeer_leavesSequence_of_ne hn hm _ s))

theorem loseSlot_leavesSequence {m : Nat} (hn : 1 ≤ n) (hm : m ≠ n) : LeavesSequence n (loseSlot m) := by
  refine overOwn_leavesSequence (fun s => ?_) m
  have hcount : LeavesSequence n (State.modPeer m fun p => { p with heardSlots := p.heardSlots - 1 }) :=
    modPeer_leavesSequence (by intro; rfl) m
  dsimp only
  split
  · exact (becomeAbsent_leavesSequence hn hm _).trans (hcount s)
  · exact hcount s

/-- A record becoming HEARD by a peer makes another ABSENT at most. -/
theorem becomeHeard_leavesSequence (hn : 1 ≤ n) {k : Nat} {s : State} (hk : k < s.slot.map.length) :
    ((becomeHeard k n s).peer n).lastSequence = (s.peer n).lastSequence := by
  have hafter : ((s.modSlotAt k fun r => { r with state := .heard n 0, ownerHeard := true }).slotAt k).state.owner? = some n := by
    rw [slotAt_modSlotAt, if_pos hk]
    rfl
  simp only [becomeHeard, setSlotState, hafter, changeOwner]
  split
  · rfl
  · next h =>
    split
    · next m hm =>
      exact (gainSlot_leavesSequence n _).trans (loseSlot_leavesSequence hn (fun hmn => h (by rw [hm, hmn])) _)
    · exact gainSlot_leavesSequence n _

theorem setFault_leavesSequence (m : Nat) (name : FaultName) : LeavesSequence n (setFault m name) := by
  have hset : LeavesSequence n (State.modPeer m fun p => { p with faults := p.faults.set name }) :=
    modPeer_leavesSequence (by intro; rfl) m
  refine overOwn_leavesSequence (fun s => ?_) m
  dsimp only
  split
  · rfl
  · exact hset s

theorem takeCondition_leavesSequence (m : Nat) (c : Cond) : LeavesSequence n (takeCondition m c) := by
  have hset : LeavesSequence n (State.modPeer m fun p => { p with lastCond := c }) := modPeer_leavesSequence (by intro; rfl) m
  refine overOwn_leavesSequence (fun s => ?_) m
  dsimp only
  split
  · rfl
  · exact hset s

theorem cleared_leavesSequence (m : Nat) : LeavesSequence n (State.modPeer m (·.cleared)) := modPeer_leavesSequence (by intro; rfl) m

theorem checkLayout_leavesSequence (m : Nat) (f : Frame) : LeavesSequence n (checkLayout m f) := by
  refine overOwn_leavesSequence (fun s => ?_) m
  dsimp only
  split
  · exact ((leavesSequence_of_image (imageCleared_outsideImage m)) _).trans
      ((setFault_leavesSequence m _ _).trans (cleared_leavesSequence m s))
  · rfl

theorem learnStore_leavesSequence (m : Nat) (a : AnswerSection) : LeavesSequence n (learnStore m a) := fun s => by
  have hstore : LeavesSequence n (State.modPeer m (·.store a)) :=
    modPeer_leavesSequence (fun p => by unfold PeerRecord.store; split <;> rfl) m
  unfold learnStore becomeKnown
  dsimp only
  split
  · exact ((leavesSequence_of_image (imageKnown_outsideImage m)) _).trans
      ((modPeer_leavesSequence (by intro; rfl) m _).trans (hstore s))
  · exact hstore s

theorem learnFetching_leavesSequence (m : Nat) (a : AnswerSection) : LeavesSequence n (learnFetching m a) :=
  LeavesSequence.ite
    (fun s => (learnStore_leavesSequence m a _).trans (((leavesSequence_of_image (imageCleared_outsideImage m)) _).trans
      ((setFault_leavesSequence m _ _).trans (cleared_leavesSequence m s))))
    (learnStore_leavesSequence m a)

theorem settleDiscovery_leavesSequence (m : Nat) (own : Option Nat) : LeavesSequence n (settleDiscovery m own) :=
  leavesSequence_of_peers fun s => by
    unfold settleDiscovery
    split
    · rfl
    · split <;> rfl

theorem learnAnswer_leavesSequence (m : Nat) (a : AnswerSection) (own : Option Nat) : LeavesSequence n (learnAnswer m a own) := by
  have hfetching : LeavesSequence n (State.modPeer m fun p => { p with catalogue := .fetching }) :=
    modPeer_leavesSequence (by intro; rfl) m
  have hlearns : LeavesSequence n fun s => settleDiscovery m own (learnFetching m a s) :=
    (settleDiscovery_leavesSequence m own).comp (learnFetching_leavesSequence m a)
  refine overOwn_leavesSequence (fun s => ?_) m
  split
  · rfl
  · exact hlearns s
  · exact (hlearns _).trans (hfetching s)
  · exact (hlearns _).trans (((leavesSequence_of_image (imageRetried_outsideImage m)) _).trans (hfetching s))

end

/-- The peer unit takes the frame's sequence (R83). -/
theorem peerArrival_sequence {f : Frame} {s : State} (hstate : s.ctl.state ≠ .off) (h0 : 1 ≤ f.source)
    (hsource : f.source ≠ s.ctl.config.station) (hn : f.source ≤ s.peers.length) :
    ((peerArrival f s).peer f.source).lastSequence = some f.sequence := by
  have htaken : ((takeSequence f.source f.sequence s).peer f.source).lastSequence = some f.sequence := by
    rw [takeSequence, peer_modPeer (by omega) hsource hn]
  have hframe : ((if f.kind = .slotFrame then
        checkLayout f.source f (takeCondition f.source f.cond (takeSequence f.source f.sequence s))
      else takeSequence f.source f.sequence s).peer f.source).lastSequence = some f.sequence := by
    split
    · rw [checkLayout_leavesSequence, takeCondition_leavesSequence, htaken]
    · exact htaken
  unfold peerArrival
  rw [if_neg hstate]
  dsimp only
  split
  · split
    · rw [learnAnswer_leavesSequence, hframe]
    · exact hframe
  · exact hframe

/-! ## The record of the arrival's slot (R24 to R26) -/

/-- What an arrival makes of a FREE or HEARD record of its slot. -/
def arrivedRecord (f : Frame) (r : SlotRecord) : SlotRecord :=
  if f.kind = .slotFrame ∧ f.cond.leaving then { r with state := .free, ownerHeard := false }
  else { r with state := .heard f.source 0, ownerHeard := true }

theorem mapArrival_slot_of_heard {f : Frame} {s : State} (winner : Bool) (hstate : s.ctl.state ≠ .off)
    (howned : (s.slotAt f.slot).state.isOwned = false) (hclaiming : (s.slotAt f.slot).state.isClaiming = false) :
    (mapArrival f winner s).slot = { s.slot with map := s.slot.map.modify f.slot (arrivedRecord f) } := by
  have heard : (if f.kind = .slotFrame ∧ f.cond.leaving then becomeFree f.slot s else becomeHeard f.slot f.source s).slot
      = { s.slot with map := s.slot.map.modify f.slot (arrivedRecord f) } := by
    unfold arrivedRecord
    split
    · exact setSlotState_slot ..
    · exact setSlotState_slot ..
  unfold mapArrival
  rw [if_neg hstate]
  split
  · exact heard
  · exact heard
  · next h =>
    rw [h] at hclaiming
    cases hclaiming
  · next h =>
    rw [h] at howned
    cases howned

/-- A CLAIMING or OWNED record stays, and is counted out of step, but for the winner's arrival (R25). -/
theorem mapArrival_of_own {f : Frame} {s : State} (winner : Bool) (hstate : s.ctl.state ≠ .off)
    (hown : (s.slotAt f.slot).state.isOwned = true ∨ (s.slotAt f.slot).state.isClaiming = true) :
    mapArrival f winner s = if winner then s else s.modSlot fun u => { u with outOfStep := satInc u.outOfStep } := by
  unfold mapArrival
  rw [if_neg hstate]
  split
  · next h => simp [h, SlotState.isOwned, SlotState.isClaiming] at hown
  · next h => simp [h, SlotState.isOwned, SlotState.isClaiming] at hown
  · rfl
  · rfl

theorem mapArrival_sequence {f : Frame} {s : State} (winner : Bool) (h0 : 1 ≤ f.source) (hslot : f.slot < s.slot.map.length)
    (hstays : f.kind = .claimFrame ∨ f.cond.leaving = false) :
    ((mapArrival f winner s).peer f.source).lastSequence = (s.peer f.source).lastSequence := by
  have hnot : ¬(f.kind = .slotFrame ∧ f.cond.leaving = true) := by
    rintro ⟨hkind, hleaving⟩
    rcases hstays with h | h
    · rw [h] at hkind
      cases hkind
    · rw [h] at hleaving
      cases hleaving
  have counts : ((if winner then s else s.modSlot fun u => { u with outOfStep := satInc u.outOfStep }).peer f.source).lastSequence
      = (s.peer f.source).lastSequence := by
    split <;> rfl
  unfold mapArrival
  rw [if_neg hnot]
  split
  · rfl
  · split
    · exact becomeHeard_leavesSequence h0 hslot
    · exact becomeHeard_leavesSequence h0 hslot
    · exact counts
    · exact counts

end Sys2Proof.Machine

namespace Sys2Proof.Machine

/-! ## The record of the arrival's slot after the arrival (R12, R24 to R26) -/

section
variable {f : Frame} {s : State}

theorem mapArrival_slotAt_of_heard (winner : Bool) (hstate : s.ctl.state ≠ .off) (hslot : f.slot < s.slot.map.length)
    (howned : (s.slotAt f.slot).state.isOwned = false) (hclaiming : (s.slotAt f.slot).state.isClaiming = false) :
    (mapArrival f winner s).slotAt f.slot = arrivedRecord f (s.slotAt f.slot) := by
  rw [State.slotAt, mapArrival_slot_of_heard winner hstate howned hclaiming]
  exact (slotAt_modSlotAt f.slot (arrivedRecord f) s).trans (if_pos hslot)

theorem arrivedRecord_of_leaving (r : SlotRecord) (hkind : f.kind = .slotFrame) (hleaving : f.cond.leaving = true) :
    arrivedRecord f r = { r with state := .free, ownerHeard := false } := if_pos ⟨hkind, hleaving⟩

theorem arrivedRecord_of_staying (r : SlotRecord) (hstays : f.kind = .claimFrame ∨ f.cond.leaving = false) :
    arrivedRecord f r = { r with state := .heard f.source 0, ownerHeard := true } := by
  refine if_neg ?_
  rintro ⟨hkind, hleaving⟩
  rcases hstays with h | h
  · rw [h] at hkind
    cases hkind
  · rw [h] at hleaving
    cases hleaving

theorem arrivedRecord_activity (r : SlotRecord) : (arrivedRecord f r).activityThis = r.activityThis := by
  unfold arrivedRecord
  split <;> rfl

theorem arriving_slot (hstate : s.ctl.state ≠ .off) :
    (arriving f s).slot
      = { s.slot with
          timer := s.slot.timer + 1, map := s.slot.map.modify f.slot fun q => { q with activityThis := true } } := by
  have hlater : (s.afterBit .recessive).slot = { s.slot with timer := s.slot.timer + 1 } := if_neg hstate
  exact congrArg (fun u : SlotUnit => { u with map := s.slot.map.modify f.slot fun q => { q with activityThis := true } }) hlater

theorem arriving_slotAt (hslot : f.slot < s.slot.map.length) :
    (arriving f s).slotAt f.slot = { s.slotAt f.slot with activityThis := true } :=
  (slotAt_modSlotAt f.slot (fun q => { q with activityThis := true }) s).trans (if_pos hslot)

theorem arriving_slotAt_ne {k : Nat} (h : f.slot ≠ k) : (arriving f s).slotAt k = s.slotAt k :=
  slotAt_modSlotAt_ne h (fun q => { q with activityThis := true }) s

theorem arriving_mapLength : (arriving f s).slot.map.length = s.slot.map.length := List.length_modify ..

theorem peerArrival_slot (f : Frame) (s : State) : (peerArrival f s).slot = s.slot :=
  (congrArg State.slot (peerArrival_outsidePeers f s) :)

theorem peerArrival_slotAt (f : Frame) (s : State) (k : Nat) : (peerArrival f s).slotAt k = s.slotAt k := by
  rw [State.slotAt, peerArrival_slot, State.slotAt]

theorem peerArrival_ctl (f : Frame) (s : State) : (peerArrival f s).ctl = s.ctl :=
  (congrArg State.ctl (peerArrival_outsidePeers f s) :)

/-- The record of the arrival's slot, when peer unit and slot map have taken an arrival in a slot that was not this station's. -/
theorem mapped_slotAt_of_heard (winner : Bool) (hstate : s.ctl.state ≠ .off) (hslot : f.slot < s.slot.map.length)
    (howned : (s.slotAt f.slot).state.isOwned = false) (hclaiming : (s.slotAt f.slot).state.isClaiming = false) :
    (mapArrival f winner (peerArrival f s)).slotAt f.slot = arrivedRecord f (s.slotAt f.slot) := by
  rw [mapArrival_slotAt_of_heard winner, peerArrival_slotAt]
  · rwa [peerArrival_ctl]
  · rwa [peerArrival_slot]
  · rwa [peerArrival_slotAt]
  · rwa [peerArrival_slotAt]

/-- In a slot of this station the arrival is counted out of step, but for the winner's (R25). -/
theorem mapped_slot_of_own (winner : Bool) (hstate : s.ctl.state ≠ .off)
    (hown : (s.slotAt f.slot).state.isOwned = true ∨ (s.slotAt f.slot).state.isClaiming = true) :
    (mapArrival f winner (peerArrival f s)).slot
      = if winner then s.slot else { s.slot with outOfStep := satInc s.slot.outOfStep } := by
  rw [mapArrival_of_own winner (by rwa [peerArrival_ctl]) (by rwa [peerArrival_slotAt]), ← peerArrival_slot f s]
  split <;> rfl

end

/-! ## A GOOD arrival without a wrap that ends no transmission (R12, R13, R17, R24 to R26, R83) -/

section
variable {s t : State} {f : Frame} {bytes : Nat}

theorem goodArrival_alone (hmid : s.midSlot) (hstate : s.ctl.state ≠ .off) (hwrap : ¬wraps f (arriving f s))
    (hslot : f.slot < s.slot.map.length) (h0 : 1 ≤ f.source) (hsource : f.source ≠ s.ctl.config.station)
    (hn : f.source ≤ s.peers.length) (ht : t = finish (arrivalOver (handArrival f bytes [] (arriving f s)))) :
    t.slot.round = s.slot.round ∧ t.ctl.state = s.ctl.state
      ∧ (f.kind = .claimFrame ∨ f.cond.leaving = false → (t.peer f.source).lastSequence = some f.sequence)
      ∧ (if s.line.tx = none then t.slot.alignTo f.slot bytes else t.slot) = t.slot
      ∧ (s.line.tx = none ∨ t.slot.counter = s.slot.counter ∧ t.slot.timer = s.slot.timer + 1)
      ∧ (t.slotAt f.slot).activityThis = true
      ∧ ((s.slotAt f.slot).state.isOwned = false → (s.slotAt f.slot).state.isClaiming = false →
          (f.kind = .slotFrame → f.cond.leaving = true →
              (t.slotAt f.slot).state = .free ∧ (t.slotAt f.slot).ownerHeard = false)
            ∧ (f.kind = .claimFrame ∨ f.cond.leaving = false →
                (t.slotAt f.slot).state = .heard f.source 0 ∧ (t.slotAt f.slot).ownerHeard = true))
      ∧ ((s.slotAt f.slot).state.isOwned = true ∨ (s.slotAt f.slot).state.isClaiming = true →
          (t.slotAt f.slot).state = (s.slotAt f.slot).state ∧ t.slot.outOfStep = satInc s.slot.outOfStep) := by
  let n := mapArrival f false (peerArrival f (arriving f s))
  have hframe : n.outsideMap = (arriving f s).outsideMap := beforeReports_frame (waiting := [])
  have hctl : n.ctl = s.ctl := (congrArg State.ctl hframe :)
  obtain ⟨htctl, htpeers, htslot, -⟩ := goodArrival_blocks (bytes := bytes) (waiting := []) hmid hstate hwrap
    (by rw [show reportedAfter f [] (arriving f s) = n from rfl, hctl]; exact hstate) ht
  rw [show reportedAfter f [] (arriving f s) = n from rfl] at htctl htpeers htslot
  have hmap : t.slot.map = n.slot.map ∧ t.slot.round = n.slot.round ∧ t.slot.outOfStep = n.slot.outOfStep := by
    rw [htslot]
    split <;> exact ⟨rfl, rfl, rfl⟩
  obtain ⟨hmap, hround, hstep⟩ := hmap
  have hat : t.slotAt f.slot = n.slotAt f.slot := by rw [State.slotAt, hmap, State.slotAt]
  have hstate' : (arriving f s).ctl.state ≠ .off := hstate
  have hslot' : f.slot < (arriving f s).slot.map.length := by rwa [arriving_mapLength]
  have hrecord := arriving_slotAt (f := f) (s := s) hslot
  have hheard (howned : (s.slotAt f.slot).state.isOwned = false) (hclaiming : (s.slotAt f.slot).state.isClaiming = false) :
      t.slotAt f.slot = arrivedRecord f { s.slotAt f.slot with activityThis := true } := by
    rw [hat, ← hrecord]
    exact mapped_slotAt_of_heard false hstate' hslot' (by rw [hrecord]; exact howned) (by rw [hrecord]; exact hclaiming)
  have hown (h : (s.slotAt f.slot).state.isOwned = true ∨ (s.slotAt f.slot).state.isClaiming = true) :
      t.slotAt f.slot = { s.slotAt f.slot with activityThis := true } ∧ t.slot.outOfStep = satInc s.slot.outOfStep := by
    have hn : n.slot = { (arriving f s).slot with outOfStep := satInc (arriving f s).slot.outOfStep } :=
      mapped_slot_of_own false hstate' (by rw [hrecord]; exact h)
    refine ⟨?_, ?_⟩
    · rw [hat, State.slotAt, hn, ← hrecord]
      rfl
    · rw [hstep, hn, arriving_slot hstate]
  refine ⟨?_, by rw [htctl, hctl], fun hstays => ?_, ?_, ?_, ?_, fun howned hclaiming => ⟨fun hkind hleaving => ?_, fun hstays => ?_⟩,
    fun h => ?_⟩
  · have hn : n.slot.round = (arriving f s).slot.round := (congrArg (·.slot.round) hframe :)
    rw [hround, hn, arriving_slot hstate]
  · rw [State.peer, htpeers]
    refine (mapArrival_sequence false h0 (by rwa [peerArrival_slot]) hstays).trans ?_
    exact peerArrival_sequence (s := arriving f s) hstate h0 hsource hn
  · rw [htslot]
    split <;> rfl
  · by_cases htx : s.line.tx = none
    · exact .inl htx
    · right
      have hstill : Still (arriving f s) n := (peerArrival_still ..).trans mapArrival_still
      rw [htslot, if_neg htx, hstill.counter, hstill.timer, arriving_slot hstate]
      exact ⟨rfl, rfl⟩
  · by_cases h : (s.slotAt f.slot).state.isOwned = true ∨ (s.slotAt f.slot).state.isClaiming = true
    · rw [(hown h).1]
    · simp only [not_or, Bool.not_eq_true] at h
      rw [hheard h.1 h.2, arrivedRecord_activity]
  · rw [hheard howned hclaiming, arrivedRecord_of_leaving _ hkind hleaving]
    exact ⟨rfl, rfl⟩
  · rw [hheard howned hclaiming, arrivedRecord_of_staying _ hstays]
    exact ⟨rfl, rfl⟩
  · rw [(hown h).1]
    exact ⟨rfl, (hown h).2⟩

end

end Sys2Proof.Machine

namespace Sys2Proof.Machine

/-! ## What a boundary and the reactions to it leave of the slot map and of station control (R16, R28, R47, R55) -/

theorem countP_modify_of_same {α : Type} {p : α → Bool} {f : α → α} {l : List α} {k : Nat} (h : ∀ a, l[k]? = some a → p (f a) = p a) :
    (l.modify k f).countP p = l.countP p := by
  induction l generalizing k with
  | nil => simp
  | cons a l ih =>
    cases k with
    | zero => rw [List.modify_zero_cons, List.countP_cons, List.countP_cons, h a rfl]
    | succ k =>
      rw [List.modify_succ_cons, List.countP_cons, List.countP_cons, ih]
      exact fun b hb => h b (by simpa using hb)

/-- Outside LEAVING the line stands, the station serves on, and records that are not FREE stay. -/
structure Mild (s t : State) : Prop where
  line : t.line = s.line
  host : t.host = s.host
  config : t.ctl.config = s.ctl.config
  state : s.ctl.state = .claiming ∨ s.ctl.state = .member → t.ctl.state = s.ctl.state
  live : s.ctl.state ≠ .off → s.ctl.state ≠ .leaving → t.ctl.state ≠ .off ∧ t.ctl.state ≠ .leaving
  length : t.slot.map.length = s.slot.map.length
  outOfStep : t.slot.outOfStep = s.slot.outOfStep
  records : ∀ k, (s.slotAt k).state ≠ .free → t.slotAt k = s.slotAt k
  owned : t.ownedCount = s.ownedCount

theorem Mild.refl (s : State) : Mild s s := ⟨rfl, rfl, rfl, fun _ => rfl, fun h h' => ⟨h, h'⟩, rfl, rfl, fun _ _ => rfl, rfl⟩

theorem Mild.trans {s t u : State} (h : Mild s t) (g : Mild t u) : Mild s u where
  line := g.line.trans h.line
  host := g.host.trans h.host
  config := g.config.trans h.config
  state hs := (g.state (by rwa [h.state hs])).trans (h.state hs)
  live hoff hleaving := g.live (h.live hoff hleaving).1 (h.live hoff hleaving).2
  length := g.length.trans h.length
  outOfStep := g.outOfStep.trans h.outOfStep
  records k hk := (g.records k (by rwa [h.records k hk])).trans (h.records k hk)
  owned := g.owned.trans h.owned

/-- The counter, the timer and the round stand. -/
structure SameTime (s t : State) : Prop where
  counter : t.slot.counter = s.slot.counter
  timer : t.slot.timer = s.slot.timer
  round : t.slot.round = s.slot.round

theorem SameTime.trans {s t u : State} (h : SameTime s t) (g : SameTime t u) : SameTime s u :=
  ⟨g.counter.trans h.counter, g.timer.trans h.timer, g.round.trans h.round⟩

/-- A reaction outside LEAVING. -/
def Gentle (s t : State) : Prop := Mild s t ∧ SameTime s t

theorem Gentle.refl (s : State) : Gentle s s := ⟨.refl s, rfl, rfl, rfl⟩

theorem Gentle.trans {s t u : State} (h : Gentle s t) (g : Gentle t u) : Gentle s u := ⟨h.1.trans g.1, h.2.trans g.2⟩

/-- A reaction that leaves line, slot unit, host link and the station's state. -/
theorem Gentle.of_same {s t : State} (hline : t.line = s.line) (hslot : t.slot = s.slot) (hhost : t.host = s.host)
    (hconfig : t.ctl.config = s.ctl.config) (hstate : t.ctl.state = s.ctl.state) : Gentle s t := by
  have hat : ∀ k, t.slotAt k = s.slotAt k := fun k => by rw [State.slotAt, hslot, State.slotAt]
  refine ⟨⟨hline, hhost, hconfig, fun _ => hstate, fun h h' => ?_, ?_, ?_, fun k _ => hat k, ?_⟩, ?_, ?_, ?_⟩
  · rw [hstate]
    exact ⟨h, h'⟩
  · rw [hslot]
  · rw [hslot]
  · rw [State.ownedCount, hslot, State.ownedCount]
  all_goals rw [hslot]

theorem Gentle.of_outsidePeers {s t : State} (h : t.outsidePeers = s.outsidePeers) : Gentle s t :=
  have hctl : t.ctl = s.ctl := (congrArg State.ctl h :)
  .of_same (congrArg State.line h :) (congrArg State.slot h :) (congrArg State.host h :) (by rw [hctl]) (by rw [hctl])

theorem modDue_gentle (f : Due → Due) (s : State) : Gentle s (s.modDue f) := .of_same rfl rfl rfl rfl rfl

/-- The search takes a FREE record at most. -/
theorem candidateSearch_gentle (s : State) : Gentle s (candidateSearch s) := by
  by_cases h : (s.ctl.state = .claiming ∨ s.ctl.state = .member) ∧ s.line.hold = false ∧ s.ownedCount + s.claimingCount < s.ctl.config.want
  · cases hk : s.candidate? with
    | none =>
      rw [candidateSearch_of_none h hk]
      split
      · exact .refl s
      · exact ⟨⟨rfl, rfl, rfl, fun _ => rfl, fun h h' => ⟨h, h'⟩, rfl, rfl, fun _ _ => rfl, rfl⟩, rfl, rfl, rfl⟩
    | some k =>
      rw [candidateSearch_of_some h hk]
      have hfree : (s.slotAt k).state = .free := by
        have := List.find?_some hk
        simp only [Bool.and_eq_true, beq_iff_eq] at this
        exact this.1
      refine ⟨⟨rfl, rfl, rfl, fun _ => rfl, fun h h' => ⟨h, h'⟩, List.length_modify .., rfl, fun j hj => ?_, ?_⟩, rfl, rfl, rfl⟩
      · refine slotAt_modSlotAt_ne (fun hkj => hj ?_) (fun r => { r with state := .claiming 0, ownerHeard := false }) s
        rw [← hkj, hfree]
      · refine countP_modify_of_same fun r hr => ?_
        have hr' : s.slotAt k = r := by rw [State.slotAt, List.getD_eq_getElem?_getD, hr]; rfl
        rw [← hr', hfree]
        rfl
  · rw [candidateSearch_of_not h]
    exact .refl s

theorem takeListen_gentle (s : State) : Gentle s (takeListen s) := by
  unfold takeListen
  split
  · dsimp only
    split
    · next hs =>
      have hs' : s.ctl.state = .listening := hs
      have hclaiming (c : Nat) : Gentle s
          (passStation .claiming 2 ((s.modDue fun d => { d with listen := false }).modCtl fun k => { k with listening := c })) := by
        refine ⟨⟨rfl, rfl, rfl, fun h => ?_, fun _ _ => ⟨nofun, nofun⟩, rfl, rfl, fun _ _ => rfl, rfl⟩, rfl, rfl, rfl⟩
        rw [hs'] at h
        simp at h
      split
      · exact (hclaiming _).trans (candidateSearch_gentle _)
      · exact .of_same rfl rfl rfl rfl rfl
    · exact modDue_gentle _ s
  · exact .refl s

theorem takeLeaving_gentle {s : State} (h : s.ctl.state ≠ .leaving) : Gentle s (takeLeaving s) := by
  unfold takeLeaving
  split
  · rw [if_neg (by exact h)]
    exact modDue_gentle _ s
  · exact .refl s

theorem takeHost_gentle (s : State) : Gentle s (takeHost s) := by
  unfold takeHost
  split
  · dsimp only
    split
    · exact modDue_gentle _ s
    · split
      · exact .of_same rfl rfl rfl rfl rfl
      · exact .of_same rfl rfl rfl rfl rfl
  · exact .refl s

theorem takeAges_gentle (s : State) : Gentle s (takeAges s) := by
  unfold takeAges
  split
  · refine (modDue_gentle (fun d => { d with ages := false }) s).trans ?_
    dsimp only
    split
    · exact .refl _
    · refine .of_outsidePeers (outsidePeers_of_image (forEntries_outsideImage _ (fun i s => ?_) _))
      simp only [ageEntry]
      split <;> simp
  · exact .refl s

theorem discoveryNoAnswer_outsidePeers (r : RequestRecord) (s : State) : (discoveryNoAnswer r s).outsidePeers = s.outsidePeers := by
  unfold discoveryNoAnswer
  dsimp only
  split
  · rw [outsidePeers_of_image (imageFailed_outsideImage ..), raise_outsidePeers, modPeer_outsidePeers,
      outsidePeers_of_requests (removeRecord_outsideRequests ..)]
  · exact outsidePeers_of_requests (removeRecord_outsideRequests ..)

theorem waitRecord_outsidePeers (s : State) (id : Nat) : (waitRecord discoveryNoAnswer s id).outsidePeers = s.outsidePeers := by
  have hrecord (f : RequestRecord → RequestRecord) : (s.modRecord id f).outsidePeers = s.outsidePeers :=
    outsidePeers_of_requests (modRecord_outsideRequests id f s)
  unfold waitRecord
  split
  · rfl
  · split
    · simp only []
      have hwait := hrecord fun r => { r with wait := r.wait - 1 }
      split
      · exact hwait
      · split
        · exact (outsidePeers_of_requests (modRecord_outsideRequests ..)).trans hwait
        · split
          · exact (outsidePeers_of_requests (endRecord_outsideRequests ..)).trans hwait
          · exact (discoveryNoAnswer_outsidePeers ..).trans hwait
    · rfl

theorem takeWaits_gentle (s : State) : Gentle s (takeWaits s) := by
  unfold takeWaits
  split
  · refine (modDue_gentle (fun d => { d with waits := false }) s).trans ?_
    dsimp only
    split
    · exact .refl _
    · refine .of_outsidePeers (foldl_keeps (P := fun t => t.outsidePeers = _) (fun t id ht => ?_) _ rfl)
      exact (waitRecord_outsidePeers t id).trans ht
  · exact .refl s

theorem takeDeadline_gentle (s : State) : Gentle s (takeDeadline s) :=
  .of_outsidePeers (outsidePeers_of_image (outsideImage_of_units (takeDeadline_outsideUnits s)))

theorem takePeriods_gentle (s : State) : Gentle s (takePeriods s) :=
  (modDue_gentle (fun d => { d with periods := false }) s).trans
    (.of_outsidePeers (outsidePeers_of_image (outsideImage_of_units (takePeriods_outsideUnits s))))

theorem Gentle.ite {s t : State} {c : Prop} [Decidable c] (h : Gentle s t) : Gentle s (if c then t else s) := by
  split
  · exact h
  · exact .refl s

/-- Outside LEAVING the reactions placed before an arrival's reports are gentle (log 25). -/
theorem earlyReactions_gentle {s : State} (hoff : s.ctl.state ≠ .off) (hleaving : s.ctl.state ≠ .leaving) : Gentle s (earlyReactions s) := by
  have hlisten := (takeListen_gentle s).ite (c := s.order.listenFirst = true)
  have hleave := (takeLeaving_gentle (hlisten.1.live hoff hleaving).2).ite (c := s.order.leavingFirst = true)
  exact (((((hlisten.trans hleave).trans (takeHost_gentle _).ite).trans (takeAges_gentle _).ite).trans (takeWaits_gentle _).ite).trans
    (takeDeadline_gentle _).ite).trans (takePeriods_gentle _).ite

end Sys2Proof.Machine

namespace Sys2Proof.Machine

/-! ## The adoption at a forward wrap (R16, R18) -/

theorem takeUnitDeadline_raises (u : UnitId) (s : State) : Raises (·.kind = .snapshot) s (takeUnitDeadline u s) := by
  unfold takeUnitDeadline
  split
  · have hunit (f : SnapshotUnit → SnapshotUnit) (t : State) : Raises (·.kind = .snapshot) t (t.modUnit u f) :=
      .of_eq (by cases u <;> rfl)
    dsimp only
    split
    · exact ((hunit _ s).trans (hunit _ _)).trans (endCollection_moves u _).raises
    · exact hunit _ s
  · exact .of_eq rfl

theorem takeDeadline_raises (s : State) : Raises (·.kind = .snapshot) s (takeDeadline s) :=
  (takeUnitDeadline_raises .a s).trans (takeUnitDeadline_raises .b _)

/-- With nothing due, the units' deadlines are all that may react. -/
theorem takeReactions_of_noDue {s : State} (hdue : s.due = Due.none) : takeReactions s = takeDeadline s := by
  have h1 : takeListen s = s := by simp [takeListen, hdue, Due.none]
  have h2 : takeLeaving s = s := by simp [takeLeaving, hdue, Due.none]
  have h3 : takeHost s = s := by simp [takeHost, hdue, Due.none]
  have h4 : takeAges s = s := by simp [takeAges, hdue, Due.none]
  have h5 : takeWaits s = s := by simp [takeWaits, hdue, Due.none]
  have hdeadline : (takeDeadline s).due = s.due := (congrArg State.due (takeDeadline_outsideUnits s) :)
  have h7 : takePeriods (takeDeadline s) = takeDeadline s := by simp [takePeriods, hdeadline, hdue, Due.none]
  simp [takeReactions, h1, h2, h3, h4, h5, h7]

theorem candidateSearch_raises (s : State) : Raises (fun _ => True) s (candidateSearch s) := by
  by_cases h : (s.ctl.state = .claiming ∨ s.ctl.state = .member) ∧ s.line.hold = false ∧ s.ownedCount + s.claimingCount < s.ctl.config.want
  · cases hk : s.candidate? with
    | none =>
      rw [candidateSearch_of_none h hk]
      split
      · exact .of_eq rfl
      · exact raise_raises (s := s.modSlot _) trivial
    | some k =>
      rw [candidateSearch_of_some h hk]
      exact .of_eq rfl
  · rw [candidateSearch_of_not h]
    exact .of_eq rfl

/-- A round boundary outside LEAVING, and slot time aligned. -/
structure Wrapped (slot bytes : Nat) (s t : State) : Prop extends Mild s t where
  round : t.slot.round = s.slot.round + 1
  counter : t.slot.counter = slot
  timer : t.slot.timer = 16 + BitVec.ofNat 10 (10 * bytes + 12)
  raised : Raises (fun _ => True) s t

theorem adopt_of_wrap {s : State} {slot : Nat} (bytes : Nat) (hwrap : forwardWrap s.slot.counter slot s.ctl.config.slots = true)
    (hdue : s.due = Due.none) (hoff : s.ctl.state ≠ .off) : Wrapped slot bytes s (adopt slot bytes s) := by
  have hstart : ({ s.due with start := false } : Due) = s.due := by rw [hdue]; rfl
  have haligned : adopt slot bytes s = countBoundary (s.alignTo slot bytes) := by
    simp only [adopt, hwrap, if_true, State.modDue, State.modSlot, hstart]
    rfl
  have hdeadline := takeDeadline_gentle (s.alignTo slot bytes)
  have hctl : (takeDeadline (s.alignTo slot bytes)).ctl = s.ctl := (congrArg State.ctl (takeDeadline_outsideUnits _) :)
  have hboundary : countBoundary (s.alignTo slot bytes)
      = dueAtBoundary (candidateSearch ((takeDeadline (s.alignTo slot bytes)).modSlot fun u => { u with round := u.round + 1 })) := by
    rw [countBoundary, takeReactions_of_noDue (s := s.alignTo slot bytes) hdue]
    exact if_neg (by rw [hctl]; exact hoff)
  rw [haligned, hboundary]
  have hround (t : State) : Mild t (t.modSlot fun u => { u with round := u.round + 1 }) :=
    ⟨rfl, rfl, rfl, fun _ => rfl, fun h h' => ⟨h, h'⟩, rfl, rfl, fun _ _ => rfl, rfl⟩
  have halign : Mild s (s.alignTo slot bytes) := ⟨rfl, rfl, rfl, fun _ => rfl, fun h h' => ⟨h, h'⟩, rfl, rfl, fun _ _ => rfl, rfl⟩
  have hsearch := candidateSearch_gentle ((takeDeadline (s.alignTo slot bytes)).modSlot fun u => { u with round := u.round + 1 })
  have hend (t : State) : Gentle t (dueAtBoundary t) := .of_same rfl rfl rfl rfl rfl
  have htime := hsearch.2.trans (hend _).2
  refine ⟨(((halign.trans hdeadline.1).trans (hround _)).trans hsearch.1).trans (hend _).1, ?_, ?_, ?_, ?_⟩
  · rw [htime.round]
    exact congrArg (· + 1) hdeadline.2.round
  · rw [htime.counter]
    exact hdeadline.2.counter
  · rw [htime.timer]
    exact hdeadline.2.timer
  · have hraised : Raises (fun _ => True) s (takeDeadline (s.alignTo slot bytes)) :=
      (takeDeadline_raises (s.alignTo slot bytes)).mono fun _ _ => trivial
    exact (hraised.trans (candidateSearch_raises (State.modSlot _ _))).trans (.of_eq rfl)

/-! ## A GOOD arrival in a forward wrap, outside LEAVING (R12, R18) -/

/-- What handing a GOOD arrival in a wrap to the blocks comes to: the boundary is counted, slot time aligned, and records that are not FREE
after peer unit, slot map and reports, and the SLOT events of those, are there. -/
structure Follows (f : Frame) (bytes : Nat) (s n t : State) : Prop where
  line : t.line = n.line
  host : t.host = n.host
  outOfStep : t.slot.outOfStep = n.slot.outOfStep
  records : ∀ k, (n.slotAt k).state ≠ .free → t.slotAt k = n.slotAt k
  round : t.slot.round = s.slot.round + 1
  counter : t.slot.counter = f.slot
  timer : t.slot.timer = 16 + BitVec.ofNat 10 (10 * bytes + 12)
  slots : ∀ e ∈ n.raised, e.kind = .slot → e ∈ t.raised

theorem slotAt_of_core {s t : State} (h : t.seen false false = s.seen false false) (k : Nat) : t.slotAt k = s.slotAt k :=
  (congrArg (fun u : State => u.slotAt k) h :)

theorem mem_of_core {s t : State} (h : t.seen false false = s.seen false false) {e : EventRecord} (he : e ∈ s.raised) (hk : e.kind = .slot) :
    e ∈ t.raised := by
  have hmem : e ∈ s.raised.filter (EventRecord.seen false false) := List.mem_filter.mpr ⟨he, by simp [EventRecord.seen, hk]⟩
  have hraised : t.raised.filter (EventRecord.seen false false) = s.raised.filter (EventRecord.seen false false) :=
    (congrArg State.raised h :)
  rw [← hraised] at hmem
  exact List.mem_of_mem_filter hmem

section
variable {f : Frame} {bytes : Nat} {waiting : List Transmission} {s : State}

theorem reportedAfter_round (hoff : (reportedAfter f waiting s).ctl.state ≠ .off) :
    (reportedAfter f waiting s).slot.round = s.slot.round :=
  (congrArg (·.slot.round) (reportLost_reported hoff).frame :).trans (congrArg (·.slot.round) beforeReports_frame :)

/-- With the alignment adopted first, the blocks take the arrival after the boundary and the reactions placed before it. -/
theorem handArrival_of_adoptFirst (hadopts : adopts s = true) (hfirst : s.order.adoptFirst = true) :
    handArrival f bytes waiting s
      = blocksTake f ((s.peer f.source).verdict f) (winsOver f waiting) waiting s.order
          (peerArrival f (earlyReactions (adopt f.slot bytes s))) := by
  rw [handArrival_eq, adoptedEarly, if_pos ⟨hadopts, hfirst⟩, adoptedLate, if_neg fun h => h.2.1 hfirst]
  rfl

/-- With the alignment adopted last, the boundary comes after all of them. -/
theorem handArrival_of_adoptLast (hwrap : wraps f s) (hfirst : ¬s.order.adoptFirst = true) (hdue : s.due = Due.none)
    (hn : (reportedAfter f waiting s).ctl.state ≠ .off) :
    Wrapped f.slot bytes (takenBy f waiting s (peerArrival f s)) (handArrival f bytes waiting s) := by
  obtain ⟨hadopts, hforward⟩ := hwrap
  have hcore : (takenBy f waiting s (peerArrival f s)).seen false false = (reportedAfter f waiting s).seen false false :=
    takenBy_core (.refl _)
  have hctl := ctl_of_seen hcore
  have hoff : (takenBy f waiting s (peerArrival f s)).ctl.state ≠ .off := by rwa [hctl]
  have hhand : handArrival f bytes waiting s = adopt f.slot bytes (takenBy f waiting s (peerArrival f s)) := by
    rw [handArrival_eq, adoptedEarly, if_neg fun h => hfirst h.2]
    exact if_pos ⟨hadopts, hfirst, hoff⟩
  have hstill := (peerArrival_still f s).trans (takenBy_still (waiting := waiting) (.refl _) hn)
  have hdue' : (takenBy f waiting s (peerArrival f s)).due = Due.none :=
    (congrArg State.due hcore :).trans ((reportedAfter_due hn).trans hdue)
  rw [hhand]
  exact adopt_of_wrap bytes (by rw [hstill.counter, hctl, reportedAfter_config]; exact hforward) hdue' hoff

/-- The peer unit, the slot map and the reports take the arrival in a state to which the wrap's boundary may have come before. -/
theorem handArrival_of_wrap (hwrap : wraps f s) (hdue : s.due = Due.none) (hoff : s.ctl.state ≠ .off) (hleaving : s.ctl.state ≠ .leaving) :
    ∃ u, Mild s u ∧ (u.slot.round = s.slot.round ∨ u.slot.round = s.slot.round + 1)
      ∧ ((reportedAfter f waiting u).ctl.state ≠ .off →
          Follows f bytes s (reportedAfter f waiting u) (handArrival f bytes waiting s)) := by
  have ⟨hadopts, hforward⟩ := hwrap
  by_cases hfirst : s.order.adoptFirst = true
  · have hwrapped := adopt_of_wrap bytes hforward hdue hoff
    obtain ⟨hoff', hleaving'⟩ := hwrapped.toMild.live hoff hleaving
    obtain ⟨hmild, htime⟩ := earlyReactions_gentle hoff' hleaving'
    refine ⟨earlyReactions (adopt f.slot bytes s), hwrapped.toMild.trans hmild, .inr (htime.round.trans hwrapped.round), fun hn => ?_⟩
    have hhand := handArrival_of_adoptFirst (f := f) (bytes := bytes) (waiting := waiting) hadopts hfirst
    have hcore := blocksTake_core (f := f) (v := (s.peer f.source).verdict f) (winner := winsOver f waiting) (waiting := waiting)
      (o := s.order) (.refl (peerArrival f (earlyReactions (adopt f.slot bytes s))))
    rw [← hhand] at hcore
    have hstill : Still (earlyReactions (adopt f.slot bytes s)) (handArrival f bytes waiting s) := by
      refine (peerArrival_still f _).trans ?_
      rw [hhand]
      exact blocksTake_still (by rwa [← hhand, ctl_of_seen hcore])
    refine ⟨(congrArg State.line hcore :), (congrArg State.host hcore :), (congrArg (·.slot.outOfStep) hcore :),
      fun k _ => slotAt_of_core hcore k, ?_, ?_, ?_, fun e he => mem_of_core hcore he⟩
    · exact (congrArg (·.slot.round) hcore :).trans ((reportedAfter_round hn).trans (htime.round.trans hwrapped.round))
    · rw [hstill.counter, htime.counter, hwrapped.counter]
    · rw [hstill.timer, htime.timer, hwrapped.timer]
  · refine ⟨s, .refl s, .inl rfl, fun hn => ?_⟩
    have hcore : (takenBy f waiting s (peerArrival f s)).seen false false = (reportedAfter f waiting s).seen false false :=
      takenBy_core (.refl _)
    have hwrapped := handArrival_of_adoptLast (bytes := bytes) hwrap hfirst hdue hn
    obtain ⟨es, hes, -⟩ := hwrapped.raised
    refine ⟨hwrapped.line.trans (congrArg State.line hcore :), hwrapped.host.trans (congrArg State.host hcore :),
      hwrapped.outOfStep.trans (congrArg (·.slot.outOfStep) hcore :), fun k hk => ?_, ?_, hwrapped.counter, hwrapped.timer, fun e he hk => ?_⟩
    · have hsame := slotAt_of_core hcore k
      exact (hwrapped.records k (by rwa [hsame])).trans hsame
    · have hround : (takenBy f waiting s (peerArrival f s)).slot.round = s.slot.round :=
        (congrArg (·.slot.round) hcore :).trans (reportedAfter_round hn)
      rw [hwrapped.round, hround]
    · rw [hes]
      exact List.mem_append_left _ (mem_of_core hcore he hk)

end

end Sys2Proof.Machine

namespace Sys2Proof.Machine

/-! ## A GOOD arrival in a forward wrap that ends no transmission (R13, R18, R24, R25) -/

/-- Line and round, whatever becomes of the frame assembled: what also a LEAVING that ends at the boundary leaves. -/
structure Drifts (s t : State) : Prop where
  line : t.line = { s.line with tx := t.line.tx, lost := t.line.lost }
  lost : s.line.lost = [] → t.line.lost = []
  round : t.slot.round = s.slot.round

theorem Drifts.refl (s : State) : Drifts s s := ⟨rfl, id, rfl⟩

theorem Drifts.trans {s t u : State} (h : Drifts s t) (g : Drifts t u) : Drifts s u where
  line := by rw [g.line, h.line]
  lost := g.lost ∘ h.lost
  round := g.round.trans h.round

theorem Drifts.of_line {s t : State} (hline : t.line = s.line) (hround : t.slot.round = s.slot.round) : Drifts s t :=
  ⟨by rw [hline], by rw [hline]; exact id, hround⟩

theorem Gentle.drifts {s t : State} (h : Gentle s t) : Drifts s t := .of_line h.1.line h.2.round

theorem Drifts.ite {s t : State} {c : Prop} [Decidable c] (h : Drifts s t) : Drifts s (if c then t else s) := by
  split
  · exact h
  · exact .refl s

theorem enterOff_drifts (cause : Nat) (s : State) : Drifts s (enterOff cause s) where
  line := (enterOff_lineFrame cause s).same
  lost _ := by rw [enterOff_line]; rfl
  round := by
    obtain ⟨-, -, -, -, -, hslot, -⟩ := turnedOff_outside cause s
    have hframe : (imageAndRequestsOff (turnedOff cause s)).slot = (turnedOff cause s).slot :=
      (congrArg State.slot (imageAndRequestsOff_outsidePeers _) :)
    show (imageAndRequestsOff (turnedOff cause s)).slot.round = _
    rw [hframe, hslot]

theorem takeLeaving_drifts (s : State) : Drifts s (takeLeaving s) := by
  let taken := s.modDue fun d => { d with leaving := false }
  let left := taken.modCtl fun c => { c with leaving := c.leaving + 1 }
  have htaken : Drifts s taken := .of_line rfl rfl
  have hleft : Drifts s left := .of_line rfl rfl
  have hcases : takeLeaving s
      = if s.due.leaving then
          if taken.ctl.state = .leaving then if Config.leavingRounds ≤ left.ctl.leaving then enterOff 7 left else left else taken
        else s := rfl
  rw [hcases]
  split
  · split
    · split
      · exact hleft.trans (enterOff_drifts 7 left)
      · exact hleft
    · exact htaken
  · exact .refl s

theorem earlyReactions_drifts (s : State) : Drifts s (earlyReactions s) :=
  (((((((takeListen_gentle s).drifts.ite (c := s.order.listenFirst = true)).trans
    (takeLeaving_drifts _).ite).trans (takeHost_gentle _).drifts.ite).trans (takeAges_gentle _).drifts.ite).trans
    (takeWaits_gentle _).drifts.ite).trans (takeDeadline_gentle _).drifts.ite).trans (takePeriods_gentle _).drifts.ite

section
variable {f : Frame} {bytes : Nat} {s : State}

/-- With no LOST transmission, the blocks leave line and round, in OFF too. -/
theorem blocksTake_drifts {v : Verdict} {winner : Bool} {o : Order} : Drifts s (blocksTake f v winner [] o s) := by
  have hcore := blocksTake_core (f := f) (v := v) (winner := winner) (waiting := []) (o := o) (.refl s)
  have hmap : (mapArrival f winner s).slot.round = s.slot.round := (congrArg (·.slot.round) (mapArrival_outsideMap f winner s) :)
  exact .of_line ((congrArg State.line hcore :).trans mapArrival_still.line) ((congrArg (·.slot.round) hcore :).trans hmap)

theorem peerArrival_drifts : Drifts s (peerArrival f s) := .of_line (peerArrival_still f s).line (by rw [peerArrival_slot])

theorem handArrival_wrap_drifts (hwrap : wraps f s) (hdue : s.due = Due.none) (hoff : s.ctl.state ≠ .off) (hlost : s.line.lost = []) :
    (handArrival f bytes [] s).line = { s.line with tx := (handArrival f bytes [] s).line.tx }
      ∧ (handArrival f bytes [] s).slot.round = s.slot.round + 1 := by
  have ⟨hadopts, hforward⟩ := hwrap
  have hends {t : State} (hline : t.line = { s.line with tx := t.line.tx, lost := t.line.lost }) (ht : t.line.lost = []) :
      t.line = { s.line with tx := t.line.tx } := by
    rw [hline, ht, ← hlost]
  by_cases hfirst : s.order.adoptFirst = true
  · have hwrapped := adopt_of_wrap bytes hforward hdue hoff
    have hhand := handArrival_of_adoptFirst (f := f) (bytes := bytes) (waiting := []) hadopts hfirst
    have hdrifts : Drifts (adopt f.slot bytes s) (handArrival f bytes [] s) := by
      rw [hhand]
      exact ((earlyReactions_drifts _).trans peerArrival_drifts).trans blocksTake_drifts
    refine ⟨hends ?_ (hdrifts.lost (by rw [hwrapped.line, hlost])), by rw [hdrifts.round, hwrapped.round]⟩
    rw [hdrifts.line, hwrapped.line]
  · have hdrifts : Drifts s (takenBy f [] s (peerArrival f s)) := peerArrival_drifts.trans blocksTake_drifts
    have hn : (reportedAfter f [] s).ctl.state ≠ .off := by
      have hctl : (reportedAfter f [] s).ctl = s.ctl := (congrArg State.ctl beforeReports_frame :)
      rwa [hctl]
    have hwrapped := handArrival_of_adoptLast (bytes := bytes) hwrap hfirst hdue hn
    refine ⟨hends ?_ ?_, by rw [hwrapped.round, hdrifts.round]⟩
    · rw [hwrapped.line, hdrifts.line]
    · rw [hwrapped.line, hdrifts.lost hlost]

/-- The records and slot time after a wrap outside LEAVING, and a frame counted out of step. -/
theorem handArrival_wrap_records (hwrap : wraps f s) (hdue : s.due = Due.none) (hoff : s.ctl.state ≠ .off)
    (hleaving : s.ctl.state ≠ .leaving) (hslot : f.slot < s.slot.map.length) :
    let t := handArrival f bytes [] s
    t.slot.alignTo f.slot bytes = t.slot
      ∧ ((s.slotAt f.slot).state.owner?.isSome = true → f.kind = .claimFrame ∨ f.cond.leaving = false →
          t.slotAt f.slot = { s.slotAt f.slot with state := .heard f.source 0, ownerHeard := true })
      ∧ ((s.slotAt f.slot).state.isOwned = true →
          t.slotAt f.slot = s.slotAt f.slot ∧ t.slot.outOfStep = satInc s.slot.outOfStep) := by
  obtain ⟨u, hmild, -, hfollows⟩ := handArrival_of_wrap (bytes := bytes) (waiting := []) hwrap hdue hoff hleaving
  have huoff := (hmild.live hoff hleaving).1
  have hframe : (reportedAfter f [] u).ctl = u.ctl := (congrArg State.ctl beforeReports_frame :)
  have h := hfollows (by rwa [hframe])
  refine ⟨alignTo_of_aligned h.counter h.timer, fun howner hstays => ?_, fun howned => ?_⟩
  · have hnotFree : (s.slotAt f.slot).state ≠ .free := fun hfree => by simp [hfree, SlotState.owner?] at howner
    have hu := hmild.records f.slot hnotFree
    have hnotOwn : (s.slotAt f.slot).state.isOwned = false ∧ (s.slotAt f.slot).state.isClaiming = false := by
      cases hst : (s.slotAt f.slot).state <;> simp_all [SlotState.owner?, SlotState.isOwned, SlotState.isClaiming]
    have hn : (reportedAfter f [] u).slotAt f.slot = arrivedRecord f (u.slotAt f.slot) :=
      mapped_slotAt_of_heard false huoff (by rwa [hmild.length]) (by rw [hu]; exact hnotOwn.1) (by rw [hu]; exact hnotOwn.2)
    rw [arrivedRecord_of_staying _ hstays, hu] at hn
    rw [h.records f.slot (by rw [hn]; simp), hn]
  · have hnotFree : (s.slotAt f.slot).state ≠ .free := fun hfree => by simp [hfree, SlotState.isOwned] at howned
    have hu := hmild.records f.slot hnotFree
    have hn : (reportedAfter f [] u).slot = { u.slot with outOfStep := satInc u.slot.outOfStep } :=
      mapped_slot_of_own false huoff (.inl (by rw [hu]; exact howned))
    have hat : (reportedAfter f [] u).slotAt f.slot = s.slotAt f.slot := by
      rw [← hu, State.slotAt, hn]
      rfl
    refine ⟨(h.records f.slot (by rwa [hat])).trans hat, ?_⟩
    rw [h.outOfStep, hn, hmild.outOfStep]

end

end Sys2Proof.Machine

namespace Sys2Proof.Machine

/-! ## The winner's arrival of a LOST transmission (R25, R31, R33) -/

section
variable {f : Frame} {s : State}

theorem mapArrival_slotAt_ne (winner : Bool) {k : Nat} (hk : f.slot ≠ k) : (mapArrival f winner s).slotAt k = s.slotAt k := by
  by_cases hstate : s.ctl.state = .off
  · rw [mapArrival, if_pos hstate]
  · by_cases hown : (s.slotAt f.slot).state.isOwned = true ∨ (s.slotAt f.slot).state.isClaiming = true
    · rw [mapArrival_of_own winner hstate hown]
      split <;> rfl
    · simp only [not_or, Bool.not_eq_true] at hown
      rw [State.slotAt, mapArrival_slot_of_heard winner hstate hown.1 hown.2]
      exact slotAt_modSlotAt_ne hk (arrivedRecord f) s

theorem arrivedRecord_notOwned (r : SlotRecord) : (arrivedRecord f r).state.isOwned = false := by
  unfold arrivedRecord
  split <;> rfl

/-- Whatever is heard in a slot, this station owns as many as before. -/
theorem mapArrival_ownedCount (winner : Bool) : (mapArrival f winner s).ownedCount = s.ownedCount := by
  by_cases hstate : s.ctl.state = .off
  · rw [mapArrival, if_pos hstate]
  · by_cases hown : (s.slotAt f.slot).state.isOwned = true ∨ (s.slotAt f.slot).state.isClaiming = true
    · rw [mapArrival_of_own winner hstate hown]
      split <;> rfl
    · simp only [not_or, Bool.not_eq_true] at hown
      rw [State.ownedCount, mapArrival_slot_of_heard winner hstate hown.1 hown.2]
      refine countP_modify_of_same fun r hr => ?_
      have hr' : s.slotAt f.slot = r := by rw [State.slotAt, List.getD_eq_getElem?_getD, hr]; rfl
      rw [arrivedRecord_notOwned, ← hr', hown.1]

/-- The record of a slot in which this station lost a transmission stands through the arrival, its winner's or not. -/
theorem mapped_lostRecord {x : Transmission} (hstate : s.ctl.state ≠ .off)
    (hown : (s.slotAt x.slot).state.isOwned = true ∨ (s.slotAt x.slot).state.isClaiming = true) :
    (mapArrival f (winsOver f [x]) (peerArrival f s)).slotAt x.slot = s.slotAt x.slot := by
  by_cases hx : f.slot = x.slot
  · have hwins : winsOver f [x] = true := by simp [winsOver, hx]
    rw [hwins, State.slotAt, mapped_slot_of_own true hstate (by rwa [hx]), if_pos rfl]
    rfl
  · rw [mapArrival_slotAt_ne _ hx, peerArrival_slotAt]

theorem mapped_ctl (winner : Bool) : (mapArrival f winner (peerArrival f s)).ctl = s.ctl :=
  (congrArg State.ctl (mapArrival_outsideMap f winner _) :).trans (peerArrival_ctl f s)

theorem mapped_round (winner : Bool) : (mapArrival f winner (peerArrival f s)).slot.round = s.slot.round :=
  (congrArg (·.slot.round) (mapArrival_outsideMap f winner _) :).trans
    (congrArg (·.slot.round) (outsideMap_of_peers (peerArrival_outsidePeers f s)) :)

theorem mapped_ownedCount (winner : Bool) : (mapArrival f winner (peerArrival f s)).ownedCount = s.ownedCount := by
  rw [mapArrival_ownedCount, State.ownedCount, peerArrival_slot, State.ownedCount]

theorem knownWinner_good {station slot : Nat} (hsource : f.source ≠ station) :
    knownWinner station slot .good (some f) = if slot = f.slot then some f.source else none := by
  simp only [knownWinner, hsource, ne_eq, not_false_eq_true, and_true, eq_comm]

/-! ### The record given up -/

theorem giveUpSlot_outsideMap (x : Transmission) (winner : Option Nat) (s : State) : (giveUpSlot x winner s).outsideMap = s.outsideMap := by
  cases winner with
  | none => exact (setSlotState_outsideMap x.slot _ s :)
  | some n => exact setSlotState_outsideMap ..

theorem giveUpSlot_slotAt {x : Transmission} (hx : x.slot < s.slot.map.length) (n : Nat) :
    ((giveUpSlot x (some n) s).slotAt x.slot).state = .heard n 0 := by
  have hslot : (giveUpSlot x (some n) s).slotAt x.slot
      = (s.modSlotAt x.slot fun r => { r with state := .heard n 0, ownerHeard := true }).slotAt x.slot := by
    rw [State.slotAt, giveUpSlot, becomeHeard, setSlotState_slot]
    rfl
  rw [hslot, slotAt_modSlotAt, if_pos hx]

theorem giveUpSlot_ownedCount {x : Transmission} {k : Nat} (hst : (s.slotAt x.slot).state = .owned k) (winner : Option Nat) :
    (giveUpSlot x winner s).ownedCount = s.ownedCount - 1 := by
  cases winner with
  | none => rw [giveUpSlot_unknown (by rw [hst]; rfl), ownedCount_givenUp hst]
  | some n =>
    have hx := lt_of_slotAt_ne (s := s) (k := x.slot) (by rw [hst]; simp)
    rw [State.slotAt, List.getD_eq_getElem _ _ hx] at hst
    rw [giveUpSlot, becomeHeard, State.ownedCount, setSlotState_slot]
    exact countP_modify_lt hx (by rw [hst]; rfl) rfl

/-! ### The three reports of an arrival that ends one transmission -/

variable {x : Transmission} {k : Nat}

/-- The winner that a report names: the sender of an arrival in the same slot. -/
def winnerOf (f : Frame) (x : Transmission) : Nat := if x.slot = f.slot then f.source else 0

/-- A LOST claim frame: CLAIM_FAILED with the winner, whose slot it is from now on (R31). -/
theorem reportedAfter_lostClaim (hstate : s.ctl.state ≠ .off) (hsource : f.source ≠ s.ctl.config.station) (hkind : x.kind = .claimFrame)
    (hst : (s.slotAt x.slot).state = .claiming k) :
    (reportedAfter f [x] s).ctl.state ≠ .off
      ∧ (x.slot = f.slot → ((reportedAfter f [x] s).slotAt x.slot).state = .heard f.source 0)
      ∧ ⟨.slot, 3, x.slot, winnerOf f x, 1, s.slot.round⟩ ∈ (reportedAfter f [x] s).raised := by
  let m := mapArrival f (winsOver f [x]) (peerArrival f s)
  have hm : (m.slotAt x.slot).state = .claiming k := by
    rw [mapped_lostRecord hstate (.inr (by rw [hst]; rfl)), hst]
  have hctl : m.ctl = s.ctl := mapped_ctl _
  have hx := lt_of_slotAt_ne (s := m) (k := x.slot) (by rw [hm]; simp)
  let w := if x.slot = f.slot then some f.source else none
  have hreport : reportedAfter f [x] s = raise .slot 3 x.slot (w.getD 0) 1 (giveUpSlot x w m) := by
    show reportEnd x (.lost .good (some f)) m = _
    rw [reportEnd_of_notSent x (by simp)]
    simp only [reportToSlots, hkind, hm, reportClaim, hctl, knownWinner_good hsource, w]
  have hframe := giveUpSlot_outsideMap x w m
  have hround : (giveUpSlot x w m).slot.round = s.slot.round := (congrArg (·.slot.round) hframe :).trans (mapped_round _)
  have hwinner : w.getD 0 = winnerOf f x := by
    simp only [w, winnerOf]
    split <;> rfl
  rw [hreport]
  refine ⟨?_, fun hslot => ?_, ?_⟩
  · have hctl' : (giveUpSlot x w m).ctl = m.ctl := (congrArg State.ctl hframe :)
    rw [raise_ctl, hctl', hctl]
    exact hstate
  · have hw : w = some f.source := if_pos hslot
    rw [hw]
    exact giveUpSlot_slotAt hx f.source
  · rw [raise_raised, hround, hwinner]
    exact List.mem_append_right _ (List.mem_singleton.mpr rfl)

/-- A second loss of a slot frame: LOST with the winner, whose slot it is from now on, and one OWNED record less (R33). -/
theorem reportedAfter_lostSlot (hstate : s.ctl.state = .member) (hsource : f.source ≠ s.ctl.config.station) (hkind : x.kind = .slotFrame)
    (hst : (s.slotAt x.slot).state = .owned k) (hk : k ≠ 0) :
    (reportedAfter f [x] s).ctl.state ≠ .off
      ∧ (x.slot = f.slot → ((reportedAfter f [x] s).slotAt x.slot).state = .heard f.source 0)
      ∧ ⟨.slot, 2, x.slot, winnerOf f x, BitVec.ofNat 32 (s.ownedCount - 1), s.slot.round⟩ ∈ (reportedAfter f [x] s).raised := by
  have hoff : s.ctl.state ≠ .off := by rw [hstate]; simp
  let m := mapArrival f (winsOver f [x]) (peerArrival f s)
  have hm : (m.slotAt x.slot).state = .owned k := by
    rw [mapped_lostRecord hoff (.inl (by rw [hst]; rfl)), hst]
  have hctl : m.ctl = s.ctl := mapped_ctl _
  have hx := lt_of_slotAt_ne (s := m) (k := x.slot) (by rw [hm]; simp)
  let w := if x.slot = f.slot then some f.source else none
  let lost := slotLost x w (giveUpSlot x w m)
  have hframe := giveUpSlot_outsideMap x w m
  have hlostctl : lost.ctl = s.ctl := (congrArg State.ctl hframe :).trans hctl
  have hreport : reportedAfter f [x] s = if lost.ownedCount = 0 then passStation .claiming 4 lost else lost := by
    rw [← followOwned_member (by rw [hlostctl, hstate])]
    show reportEnd x (.lost .good (some f)) m = _
    rw [reportEnd_of_notSent x (by simp)]
    simp only [reportToSlots, hkind, hm, hctl, hstate, reportOwned_lost, if_neg hk, knownWinner_good hsource]
    rfl
  have hround : (giveUpSlot x w m).slot.round = s.slot.round := (congrArg (·.slot.round) hframe :).trans (mapped_round _)
  have hwinner : w.getD 0 = winnerOf f x := by
    simp only [w, winnerOf]
    split <;> rfl
  have hcount : (giveUpSlot x w m).ownedCount = s.ownedCount - 1 := by rw [giveUpSlot_ownedCount hm, mapped_ownedCount]
  have hmem : ⟨.slot, 2, x.slot, winnerOf f x, BitVec.ofNat 32 (s.ownedCount - 1), s.slot.round⟩ ∈ lost.raised := by
    simp only [lost, slotLost]
    rw [raise_raised, hround, hwinner, hcount]
    exact List.mem_append_right _ (List.mem_singleton.mpr rfl)
  have hheard (hslot : x.slot = f.slot) : (lost.slotAt x.slot).state = .heard f.source 0 := by
    have hw : w = some f.source := if_pos hslot
    simp only [lost, hw]
    exact giveUpSlot_slotAt hx f.source
  rw [hreport]
  split
  · exact ⟨nofun, hheard, List.mem_append_left _ hmem⟩
  · exact ⟨by rw [hlostctl]; exact hoff, hheard, hmem⟩

/-- A first loss of a slot frame: the clash is counted (R33). -/
theorem reportedAfter_clash (hstate : s.ctl.state = .member) (hkind : x.kind = .slotFrame) (hst : (s.slotAt x.slot).state = .owned 0) :
    (reportedAfter f [x] s).ctl.state ≠ .off ∧ ((reportedAfter f [x] s).slotAt x.slot).state = .owned 1 := by
  have hoff : s.ctl.state ≠ .off := by rw [hstate]; simp
  let m := mapArrival f (winsOver f [x]) (peerArrival f s)
  have hm : (m.slotAt x.slot).state = .owned 0 := by
    rw [mapped_lostRecord hoff (.inl (by rw [hst]; rfl)), hst]
  have hctl : m.ctl = s.ctl := mapped_ctl _
  have hreport : reportedAfter f [x] s = m.modSlotAt x.slot fun r => { r with state := .owned 1 } :=
    reportEnd_firstLoss hkind hm (by rw [hctl, hstate])
  rw [hreport, slotAt_modSlotAt, if_pos (lt_of_slotAt_ne (by rw [hm]; simp))]
  exact ⟨by rw [modSlotAt_ctl, hctl]; exact hoff, rfl⟩

end

end Sys2Proof.Machine

namespace Sys2Proof.Machine

/-! ## A GOOD arrival is taken (R12, R13, R17, R18, R24 to R26, R31, R33) -/

section
variable {s : State} {f : Frame} {bytes : Nat}

theorem wraps_arriving (hstate : s.ctl.state ≠ .off) :
    wraps f (arriving f s)
      ↔ s.line.tx = none ∧ f.slot < s.slot.counter ∧ s.ctl.config.slots < 2 * (s.slot.counter - f.slot) := by
  have hcounter : (arriving f s).slot.counter = s.slot.counter := by rw [arriving_slot hstate]
  have hconfig : (arriving f s).ctl.config = s.ctl.config := rfl
  rw [wraps, adopts_arriving hstate, hcounter, hconfig]
  simp [forwardWrap]

theorem arriving_slotAt_state (hslot : f.slot < s.slot.map.length) (k : Nat) :
    ((arriving f s).slotAt k).state = (s.slotAt k).state := by
  by_cases hk : f.slot = k
  · subst hk
    rw [arriving_slotAt hslot]
  · rw [arriving_slotAt_ne hk]

theorem arriving_ownedCount : (arriving f s).ownedCount = s.ownedCount := countP_modify_of_same fun _ _ => rfl

/-- After a wrap outside LEAVING: what a report before the arrival's end left is there when the step has ended. -/
theorem goodArrival_reports {x : Transmission} {t : State} (hmid : s.midSlot) (hstate : s.ctl.state = .claiming ∨ s.ctl.state = .member)
    (hslot : f.slot < s.slot.map.length) (hwrap : wraps f (arriving f s))
    (ht : t = finish (arrivalOver (handArrival f bytes [x] (arriving f s)))) :
    ∃ u, u.ctl.state = s.ctl.state ∧ u.ctl.config = s.ctl.config
      ∧ (∀ k, (s.slotAt k).state ≠ .free → (u.slotAt k).state = (s.slotAt k).state) ∧ u.ownedCount = s.ownedCount
      ∧ (u.slot.round = s.slot.round ∨ u.slot.round = s.slot.round + 1)
      ∧ ((reportedAfter f [x] u).ctl.state ≠ .off →
          t.line.lost = [] ∧ t.slot.round = s.slot.round + 1
            ∧ (∀ k, ((reportedAfter f [x] u).slotAt k).state ≠ .free → t.slotAt k = (reportedAfter f [x] u).slotAt k)
            ∧ ∀ e ∈ (reportedAfter f [x] u).raised, e.kind = .slot → s.takesEvents t fun es => e ∈ es) := by
  have hoff : (arriving f s).ctl.state ≠ .off := by
    show s.ctl.state ≠ .off
    rcases hstate with h | h <;> simp [h]
  have hleaving : (arriving f s).ctl.state ≠ .leaving := by
    show s.ctl.state ≠ .leaving
    rcases hstate with h | h <;> simp [h]
  have hround : (arriving f s).slot.round = s.slot.round := by rw [arriving_slot (s := s) hoff]
  obtain ⟨u, hmild, huround, hfollows⟩ := handArrival_of_wrap (bytes := bytes) (waiting := [x]) hwrap (nothingDue hmid).1 hoff hleaving
  refine ⟨u, hmild.state hstate, hmild.config, fun k hk => ?_, hmild.owned.trans arriving_ownedCount, by rwa [hround] at huround,
    fun hn => ?_⟩
  · rw [hmild.records k (by rwa [arriving_slotAt_state hslot]), arriving_slotAt_state hslot]
  · have h := hfollows hn
    have hlost : (reportedAfter f [x] u).line.lost = [] := by
      rw [(reportedAfter_still hn).line, hmild.line]
      rfl
    have hhost : (reportedAfter f [x] u).host = s.host :=
      (reportLost_host ..).trans ((congrArg State.host beforeReports_frame :).trans hmild.host)
    have hframe := finish_arrivalOver_frame (handArrival f bytes [x] (arriving f s))
    refine ⟨?_, ?_, fun k hk => ?_, fun e he hkind => ?_⟩
    · rw [ht, hframe]
      exact (congrArg LineUnit.lost h.line).trans hlost
    · rw [ht, hframe, ← hround]
      exact h.round
    · rw [ht, hframe]
      exact h.records k hk
    · let ended := arrivalOver (handArrival f bytes [x] (arriving f s))
      refine ⟨interleave ended.raised.length ended.order.eventPicks ended.raised, ?_, ?_⟩
      · rw [ht, finish_host]
        exact congrArg (fun host => List.foldl enterEvent host _) (h.host.trans hhost)
      · exact (interleave_perm _ _ _ le_rfl).mem_iff.mpr (h.slots e he hkind)

/-- A GOOD arrival in a wrap that ends no transmission. -/
theorem goodArrival_wrap_alone {t : State} (hmid : s.midSlot) (hstate : s.ctl.state ≠ .off) (hwrap : wraps f (arriving f s))
    (hslot : f.slot < s.slot.map.length) (ht : t = finish (arrivalOver (handArrival f bytes [] (arriving f s)))) :
    t.line = { (arriving f s).line with tx := t.line.tx } ∧ t.slot.round = s.slot.round + 1
      ∧ (s.ctl.state ≠ .leaving →
          (if s.line.tx = none then t.slot.alignTo f.slot bytes else t.slot) = t.slot
            ∧ ((s.slotAt f.slot).state.owner?.isSome = true → f.kind = .claimFrame ∨ f.cond.leaving = false →
                (t.slotAt f.slot).state = .heard f.source 0 ∧ (t.slotAt f.slot).ownerHeard = true
                  ∧ (t.slotAt f.slot).activityThis = true)
            ∧ ((s.slotAt f.slot).state.isOwned = true →
                (t.slotAt f.slot).state = (s.slotAt f.slot).state ∧ t.slot.outOfStep = satInc s.slot.outOfStep)) := by
  have hdue := (nothingDue hmid).1
  have hframe := finish_arrivalOver_frame (handArrival f bytes [] (arriving f s))
  have hslot' : f.slot < (arriving f s).slot.map.length := by rwa [arriving_mapLength]
  have hround : (arriving f s).slot.round = s.slot.round := by rw [arriving_slot hstate]
  have hrecord := arriving_slotAt (f := f) (s := s) hslot
  have hstep : (arriving f s).slot.outOfStep = s.slot.outOfStep := by rw [arriving_slot hstate]
  obtain ⟨hline, hcounted⟩ := handArrival_wrap_drifts (s := arriving f s) (bytes := bytes) hwrap hdue hstate rfl
  have htline : t.line = (handArrival f bytes [] (arriving f s)).line := by rw [ht, hframe]
  have htslot : t.slot = (handArrival f bytes [] (arriving f s)).slot := by rw [ht, hframe]
  have htat : t.slotAt f.slot = (handArrival f bytes [] (arriving f s)).slotAt f.slot := by rw [State.slotAt, htslot, State.slotAt]
  refine ⟨by rw [htline]; exact hline, by rw [htslot, hcounted, hround], fun hleaving => ?_⟩
  obtain ⟨haligned, hheard, howned⟩ := handArrival_wrap_records (s := arriving f s) (bytes := bytes) hwrap hdue hstate hleaving hslot'
  rw [htat, htslot]
  refine ⟨?_, fun howner hstays => ?_, fun h => ?_⟩
  · rw [if_pos ((adopts_arriving hstate).mp hwrap.1)]
    exact haligned
  · rw [hheard (by rw [hrecord]; exact howner) hstays, hrecord]
    exact ⟨rfl, rfl, rfl⟩
  · obtain ⟨hat, hcount⟩ := howned (by rw [hrecord]; exact h)
    rw [hat, hcount, hrecord, hstep]
    exact ⟨rfl, rfl⟩

end

/-- Settles O37. -/
theorem goodArrivalIsTaken : Obligations.GoodArrivalIsTaken := by
  intro s r f hmid hstate hh hr hown he htxe hc hsource hpeers hslots row adopted aligned wrap line
  have hrow := row_of_goodArrival hmid hstate hh hr hown he htxe hc hsource
  have hcarried : f.carried := carried_of_classify (congrArg Prod.snd hc)
  have hslot : f.slot < s.slot.map.length := by
    rw [hslots]
    exact slot_of_good hc
  have hwraps : wraps f (arriving f s) ↔ wrap := wraps_arriving hstate
  have hleads {p : State → Prop}
      (h : ∀ t, t = finish (arrivalOver (handArrival f r.bytes.length s.line.lost (arriving f s))) → p t) : Leads row s p :=
    ⟨_, hrow, h _ rfl⟩
  refine ⟨fun hlost => hleads fun t ht => ?_, fun hwrap => ⟨fun hoff => hleads fun t ht => ?_, fun hoff => hleads fun t ht => ?_⟩,
    fun x hwrap hlost hserving => ?_⟩
  · rw [hlost] at ht
    by_cases hw : wrap
    · obtain ⟨hline, hround, hrest⟩ := goodArrival_wrap_alone hmid hstate (hwraps.mpr hw) hslot ht
      exact ⟨hline, fun _ => hround, fun _ => hrest, fun h => absurd hw h⟩
    · have hw' : ¬wraps f (arriving f s) := mt hwraps.mp hw
      have hn : (reportedAfter f [] (arriving f s)).ctl.state ≠ .off := by
        rw [show (reportedAfter f [] (arriving f s)).ctl = s.ctl from (congrArg State.ctl beforeReports_frame :)]
        exact hstate
      obtain ⟨-, -, -, hline, -⟩ := goodArrival_blocks hmid hstate hw' hn ht
      have hsource_le : f.source ≤ s.peers.length := by
        rw [hpeers]
        exact hcarried.source_le
      have hrest := goodArrival_alone hmid hstate hw' hslot hcarried.source_pos hsource hsource_le ht
      refine ⟨?_, fun h => absurd h hw, fun h => absurd h hw, fun _ => hrest⟩
      rw [hline]
      rfl
  · have hw' : ¬wraps f (arriving f s) := mt hwraps.mp hwrap
    obtain ⟨hctl, hpeers, hslot, hline, htrig, hdue⟩ := goodArrival_blocks hmid hstate hw' hoff ht
    obtain ⟨hpub, hserial, v, w, hv, hw, himage, hunitA, hunitB, hcalled, hbegan, hreq, htakes⟩ := goodArrival_takers hmid hw' hoff ht
    exact ⟨hctl, hpeers, hslot, hline, hpub, hserial, htrig, hdue, v, w, hv, hw, himage, hunitA, hunitB, hcalled, hbegan, hreq, htakes⟩
  · exact goodArrival_off hmid hstate htxe (mt hwraps.mp hwrap) hoff ht
  · rw [hlost] at hleads
    intro winner reported
    have reports (code : Nat) (v : Word) (htaken : ∀ u : State, u.ctl.state = s.ctl.state → u.ctl.config = s.ctl.config →
          (u.slotAt x.slot).state = (s.slotAt x.slot).state → u.ownedCount = s.ownedCount →
          (reportedAfter f [x] u).ctl.state ≠ .off
            ∧ (x.slot = f.slot → ((reportedAfter f [x] u).slotAt x.slot).state = .heard f.source 0)
            ∧ ⟨.slot, code, x.slot, winnerOf f x, v, u.slot.round⟩ ∈ (reportedAfter f [x] u).raised)
        (hown : (s.slotAt x.slot).state ≠ .free) : reported code v := by
      refine hleads fun t ht => ?_
      obtain ⟨u, hctl, hconfig, hrecords, howned, hround, hends⟩ := goodArrival_reports hmid hserving hslot (hwraps.mpr hwrap) ht
      obtain ⟨hoff, hheard, hmem⟩ := htaken u hctl hconfig (hrecords x.slot hown) howned
      obtain ⟨hlost', hcounted, hat, htakes⟩ := hends hoff
      refine ⟨hlost', hcounted, fun hx => ?_, ?_⟩
      · rw [hat x.slot (by rw [hheard hx]; simp), hheard hx]
      · obtain ⟨es, hes, he⟩ := htakes _ hmem rfl
        rcases hround with h | h
        · exact ⟨es, hes, .inl (h ▸ he)⟩
        · exact ⟨es, hes, .inr (h ▸ he)⟩
    refine ⟨fun k hkind hst => reports 3 1 (fun u hctl hconfig hrecord _ => ?_) (by rw [hst]; simp),
      fun k hkind hst hmember => ⟨fun hk => reports 2 _ (fun u hctl hconfig hrecord howned => ?_) (by rw [hst]; simp), fun hk => ?_⟩⟩
    · exact reportedAfter_lostClaim (by rwa [hctl]) (by rwa [hconfig]) hkind (hrecord.trans hst)
    · rw [← howned]
      exact reportedAfter_lostSlot (by rw [hctl, hmember]) (by rwa [hconfig]) hkind (hrecord.trans hst) hk
    · refine hleads fun t ht => ?_
      obtain ⟨u, hctl, hconfig, hrecords, -, -, hends⟩ := goodArrival_reports hmid hserving hslot (hwraps.mpr hwrap) ht
      have hrecord := hrecords x.slot (by rw [hst]; simp)
      obtain ⟨hoff, howned⟩ := reportedAfter_clash (f := f) (by rw [hctl, hmember]) hkind (hrecord.trans (hst.trans (by rw [hk])))
      obtain ⟨hlost', -, hat, -⟩ := hends hoff
      exact ⟨hlost', by rw [hat x.slot (by rw [howned]; simp), howned]⟩

end Sys2Proof.Machine


namespace Sys2Proof.Machine

/-! ## What keeps the laws of ownership and of the station state (R28, R36, R48, R50 to R53)

`KeepsOwnership s t` says that both laws go from `s` to `t`. Most operations leave line, slot unit and station control, or change them in a
way that takes no record and begins no frame; the others are the search, the reports of frames, and the passages of the station state. -/

/-- In OFF no LOST report waits, and a frame being sent will give none (R21, R52). -/
def LineUnit.restsInOff (l : LineUnit) : Prop := l.lost = [] ∧ ∀ x, l.tx = some x → x.phase ≠ .assembled ∧ x.offSince = true

/-- The law of ownership and that of the station state go from `s` to `t`. -/
structure KeepsOwnership (s t : State) : Prop where
  ownership : s.OwnershipLaw → t.OwnershipLaw
  station : s.StationLaw → t.StationLaw

theorem KeepsOwnership.refl (s : State) : KeepsOwnership s s := ⟨id, id⟩

theorem KeepsOwnership.trans {s t u : State} (h : KeepsOwnership s t) (g : KeepsOwnership t u) : KeepsOwnership s u :=
  ⟨g.ownership ∘ h.ownership, g.station ∘ h.station⟩

/-- A change that takes no record, brings no passage of the station state, and in OFF leaves the line at rest. -/
theorem KeepsOwnership.of_records {s t : State} (want : t.ctl.config.want = s.ctl.config.want) (state : t.ctl.state = s.ctl.state)
    (leaving : t.ctl.cond.leaving = s.ctl.cond.leaving) (owned : t.ownedCount = s.ownedCount)
    (claiming : t.claimingCount ≤ s.claimingCount)
    (line : s.ctl.state = .off → s.line.restsInOff → t.line.restsInOff) : KeepsOwnership s t where
  ownership h := by
    unfold State.OwnershipLaw at h ⊢
    omega
  station := by
    rintro ⟨howned, hclaiming, hleaving, hoff⟩
    unfold State.StationLaw
    rw [state, leaving, owned]
    exact ⟨howned, fun h => hclaiming (lt_of_lt_of_le h claiming), hleaving, fun h => line h (hoff h)⟩

/-- The blocks the two laws speak of. -/
def State.bus (s : State) : LineUnit × SlotUnit × StationControl := (s.line, s.slot, s.ctl)

theorem KeepsOwnership.of_bus {s t : State} (h : t.bus = s.bus) : KeepsOwnership s t := by
  simp only [State.bus, Prod.mk.injEq] at h
  obtain ⟨hline, hslot, hctl⟩ := h
  refine .of_records (by rw [hctl]) (by rw [hctl]) (by rw [hctl]) ?_ (le_of_eq ?_) fun _ h => by rwa [hline]
  · rw [State.ownedCount, hslot, State.ownedCount]
  · rw [State.claimingCount, hslot, State.claimingCount]

theorem KeepsOwnership.of_peers {s t : State} (h : t.outsidePeers = s.outsidePeers) : KeepsOwnership s t :=
  .of_bus (congrArg State.bus h :)

theorem KeepsOwnership.of_image {s t : State} (h : t.outsideImage = s.outsideImage) : KeepsOwnership s t :=
  .of_peers (outsidePeers_of_image h)

theorem KeepsOwnership.of_units {s t : State} (h : t.outsideUnits = s.outsideUnits) : KeepsOwnership s t :=
  .of_image (outsideImage_of_units h)

theorem KeepsOwnership.of_requests {s t : State} (h : t.outsideRequests = s.outsideRequests) : KeepsOwnership s t :=
  .of_peers (outsidePeers_of_requests h)

theorem KeepsOwnership.ite {p : Prop} [Decidable p] {s t u : State} (ht : p → KeepsOwnership s t) (hu : ¬p → KeepsOwnership s u) :
    KeepsOwnership s (if p then t else u) := by
  split
  · exact ht ‹p›
  · exact hu ‹¬p›

/-- An action on condition. -/
theorem KeepsOwnership.when {p : Prop} [Decidable p] {s t : State} (h : p → KeepsOwnership s t) :
    KeepsOwnership s (if p then t else s) := .ite h fun _ => .refl s

/-- An action but on condition. -/
theorem KeepsOwnership.unless {p : Prop} [Decidable p] {s t : State} (h : ¬p → KeepsOwnership s t) :
    KeepsOwnership s (if p then s else t) := .ite (fun _ => .refl s) h

theorem foldl_keepsOwnership {α : Type} {act : State → α → State} (h : ∀ s a, KeepsOwnership s (act s a)) (l : List α)
    (s : State) :
    KeepsOwnership s (l.foldl act s) :=
  foldl_keeps (P := KeepsOwnership s) (fun t a ht => ht.trans (h t a)) l (.refl s)

theorem finish_keepsOwnership (s : State) : KeepsOwnership s (finish s) := .of_bus (by rw [finish_frame]; rfl)

/-- A change of the line unit alone. -/
theorem modLine_keepsOwnership {f : LineUnit → LineUnit} {s : State}
    (h : s.ctl.state = .off → s.line.restsInOff → (f s.line).restsInOff) : KeepsOwnership s (s.modLine f) :=
  .of_records rfl rfl rfl rfl le_rfl h

/-- A change of a record that leaves it OWNED or not, and makes none CLAIMING. -/
theorem modSlotAt_keepsOwnership {f : SlotRecord → SlotRecord} {k : Nat} {s : State}
    (howned : ∀ r, s.slot.map[k]? = some r → (f r).state.isOwned = r.state.isOwned)
    (hclaiming : ∀ r, (f r).state.isClaiming = true → r.state.isClaiming = true) : KeepsOwnership s (s.modSlotAt k f) :=
  .of_records rfl rfl rfl (countP_modify_of_same howned) (modSlotAt_claiming_le hclaiming k s) fun _ => id

/-- A change of station control that leaves WANT, the state and LEAVING. -/
theorem modCtl_keepsOwnership {f : StationControl → StationControl} {s : State} (hwant : (f s.ctl).config.want = s.ctl.config.want)
    (hstate : (f s.ctl).state = s.ctl.state) (hleaving : (f s.ctl).cond.leaving = s.ctl.cond.leaving) :
    KeepsOwnership s (s.modCtl f) := .of_records hwant hstate hleaving rfl le_rfl fun _ => id

/-! ### The slot map (R24 to R29, R37) -/

/-- A record this station neither owns nor claims takes another such state. -/
theorem setSlotState_keepsOwnership {f : SlotRecord → SlotRecord} {k : Nat} {s : State} (h : (s.slotAt k).state.isOwned = false)
    (howned : ∀ r, (f r).state.isOwned = false) (hclaiming : ∀ r, (f r).state.isClaiming = false) :
    KeepsOwnership s (setSlotState k f s) := by
  have hctl : (setSlotState k f s).ctl = s.ctl := (congrArg State.ctl (setSlotState_outsideMap k f s) :)
  refine .of_records (by rw [hctl]) (by rw [hctl]) (by rw [hctl]) ?_ ?_ fun _ h => by rwa [setSlotState_line]
  · rw [State.ownedCount, setSlotState_slot]
    refine countP_modify_of_same fun r hr => ?_
    have hr' : s.slotAt k = r := by rw [State.slotAt, List.getD_eq_getElem?_getD, hr]; rfl
    rw [howned, ← hr', h]
  · exact setSlotState_claiming_le (fun r hr => by simp [hclaiming] at hr) k s

theorem mapArrival_claiming_le (f : Frame) (winner : Bool) (s : State) : (mapArrival f winner s).claimingCount ≤ s.claimingCount := by
  have heard : (if f.kind = .slotFrame ∧ f.cond.leaving then becomeFree f.slot s else becomeHeard f.slot f.source s).claimingCount
      ≤ s.claimingCount := by
    split <;> exact setSlotState_claiming_le (fun r h => by simp [SlotState.isClaiming] at h) _ _
  unfold mapArrival
  split
  · exact le_rfl
  · split
    · exact heard
    · exact heard
    · split <;> exact le_rfl
    · split <;> exact le_rfl

theorem mapArrival_keepsOwnership (f : Frame) (winner : Bool) (s : State) : KeepsOwnership s (mapArrival f winner s) := by
  have hframe := mapArrival_outsideMap f winner s
  have hctl : (mapArrival f winner s).ctl = s.ctl := (congrArg State.ctl hframe :)
  have hline : (mapArrival f winner s).line = s.line := (congrArg State.line hframe :)
  exact .of_records (by rw [hctl]) (by rw [hctl]) (by rw [hctl]) (mapArrival_ownedCount winner) (mapArrival_claiming_le f winner s)
    fun _ h => by rwa [hline]

theorem takeSilence_keepsOwnership (s : State) : KeepsOwnership s (takeSilence s) := by
  unfold takeSilence
  split
  · exact .refl s
  · next k _ =>
    refine KeepsOwnership.trans (t := s.modDue fun d => { d with silence := none }) (.of_bus rfl) (.when fun hr => ?_)
    refine setSlotState_keepsOwnership ?_ (fun _ => rfl) fun _ => rfl
    unfold SlotRecord.silenceReached at hr
    split at hr
    · next h => rw [h]; rfl
    all_goals cases hr

theorem markActivity_keepsOwnership (slot : Option Nat) (s : State) : KeepsOwnership s (markActivity slot s) := by
  cases slot with
  | none => exact .refl s
  | some k => exact modSlotAt_keepsOwnership (fun _ _ => rfl) fun _ => id

theorem reportActivity_keepsOwnership (slot : Option Nat) (s : State) : KeepsOwnership s (reportActivity slot s) :=
  .unless fun _ => markActivity_keepsOwnership slot s

theorem freeClaim_isOwned (r : SlotRecord) : (freeClaim r).state.isOwned = r.state.isOwned := by
  unfold freeClaim
  cases h : r.state <;> simp [SlotState.isClaiming, SlotState.isOwned, h]

/-- With every CLAIMING record freed, as many are OWNED as before. -/
theorem ownedCount_freeClaims (l : List SlotRecord) :
    (l.map freeClaim).countP (·.state.isOwned) = l.countP (·.state.isOwned) := by
  rw [List.countP_map]
  exact List.countP_congr fun r _ => by rw [Function.comp_apply, freeClaim_isOwned]

theorem holdClaims_keepsOwnership (s : State) : KeepsOwnership s (holdClaims s) := by
  refine .of_records (s := s) ?_ ?_ ?_ ?_ ?_ fun _ h => by rwa [holdClaims_line]
  · rw [holdClaims_eq]
  · rw [holdClaims_eq]
  · rw [holdClaims_eq]
  · rw [holdClaims_eq]
    exact ownedCount_freeClaims s.slot.map
  · rw [holdClaims_claimingCount]
    exact Nat.zero_le _

/-- A change of one place adds one at most to what is counted. -/
theorem countP_modify_le_succ {α : Type} (p : α → Bool) (f : α → α) (l : List α) (k : Nat) :
    (l.modify k f).countP p ≤ l.countP p + 1 := by
  induction l generalizing k with
  | nil => simp
  | cons a l ih =>
    cases k with
    | zero =>
      simp only [List.modify_zero_cons, List.countP_cons]
      split <;> omega
    | succ k =>
      simp only [List.modify_succ_cons, List.countP_cons]
      have := ih k
      omega

/-- The search claims one record at most, in CLAIMING and MEMBER, and only below WANT (R28). -/
theorem candidateSearch_keepsOwnership (s : State) : KeepsOwnership s (candidateSearch s) := by
  by_cases h : (s.ctl.state = .claiming ∨ s.ctl.state = .member) ∧ s.line.hold = false
      ∧ s.ownedCount + s.claimingCount < s.ctl.config.want
  · cases hk : s.candidate? with
    | none =>
      rw [candidateSearch_of_none h hk]
      exact .unless fun _ => .of_records rfl rfl rfl rfl le_rfl fun _ => id
    | some k =>
      have hframe := candidateSearch_outsideMap s
      have hctl : (candidateSearch s).ctl = s.ctl := (congrArg State.ctl hframe :)
      have hline : (candidateSearch s).line = s.line := (congrArg State.line hframe :)
      have howned : (candidateSearch s).ownedCount = s.ownedCount := (candidateSearch_gentle s).1.owned
      have hclaiming : (candidateSearch s).claimingCount ≤ s.claimingCount + 1 := by
        rw [candidateSearch_of_some h hk]
        exact countP_modify_le_succ ..
      obtain ⟨hserving, -, hwant⟩ := h
      refine ⟨fun _ => ?_, ?_⟩
      · unfold State.OwnershipLaw
        rw [hctl]
        omega
      · rintro ⟨h1, -, h3, h4⟩
        unfold State.StationLaw
        rw [hctl, hline, howned]
        exact ⟨h1, fun _ => hserving, h3, h4⟩
  · rw [candidateSearch_of_not h]
    exact .refl s

end Sys2Proof.Machine

namespace Sys2Proof.Machine

/-! ### Station control (R36, R46 to R52, R55, R56) -/

theorem enterOff_ownedCount (cause : Nat) (s : State) : (enterOff cause s).ownedCount = 0 := by
  rw [State.ownedCount, enterOff_slot]
  simp [slotOff, List.countP_eq_zero, SlotRecord.reset, SlotState.isOwned]

/-- On entering OFF a frame being sent is marked, and any other is discarded (R21, R52). -/
theorem lineOff_restsInOff (s : State) : (lineOff s).line.restsInOff := by
  refine ⟨rfl, fun x hx => ?_⟩
  simp only [lineOff, modLine_line, Option.map_eq_some_iff, Option.filter_eq_some_iff] at hx
  obtain ⟨y, ⟨-, hsending⟩, rfl⟩ := hx
  exact ⟨fun h => by simp [TxPhase.isSending, show y.phase = .assembled from h] at hsending, rfl⟩

/-- Whatever the state before, OFF keeps both laws (R52). -/
theorem enterOff_keepsOwnership (cause : Nat) (s t : State) : KeepsOwnership s (enterOff cause t) where
  ownership _ := by
    unfold State.OwnershipLaw
    rw [enterOff_ownedCount, enterOff_claiming]
    exact Nat.zero_le _
  station _ := by
    unfold State.StationLaw
    rw [enterOff_ownedCount, enterOff_claiming, enterOff_ctl, enterOff_line]
    exact ⟨by simp, by simp, by simp, fun _ => lineOff_restsInOff t⟩

theorem reset_ownershipLaw : State.reset.OwnershipLaw := by
  unfold State.OwnershipLaw
  decide

theorem reset_stationLaw : State.reset.StationLaw := by
  unfold State.StationLaw
  decide

/-- Station control that follows the OWNED records puts right what the law of the station state says of them (R48, R51). -/
theorem followOwned_stationLaw {s : State} (hstate : s.ctl.state = .claiming ∨ s.ctl.state = .member ∨ s.ctl.state = .leaving)
    (hclaiming : 0 < s.claimingCount → s.ctl.state = .claiming ∨ s.ctl.state = .member)
    (hleaving : s.ctl.cond.leaving = true ↔ s.ctl.state = .leaving) : (followOwned s).StationLaw := by
  have passed (st : StationState) (cause : Nat) (hserving : st = .claiming ∨ st = .member) (hs : s.ctl.state ≠ .leaving)
      (howned : 0 < s.ownedCount ↔ st = .member) : (passStation st cause s).StationLaw := by
    have hflag : ¬s.ctl.cond.leaving = true := fun h => hs (hleaving.mp h)
    refine ⟨?_, fun _ => hserving, iff_of_false hflag ?_, fun hoff => ?_⟩
    · rcases hserving with rfl | rfl <;> exact howned.trans (by simp [passStation, raiseStation])
    · rcases hserving with rfl | rfl <;> simp [passStation, raiseStation]
    · rcases hserving with rfl | rfl <;> cases hoff
  have same (howned : 0 < s.ownedCount ↔ s.ctl.state = .member ∨ s.ctl.state = .leaving) : s.StationLaw :=
    ⟨howned, hclaiming, hleaving, fun h => by rcases hstate with h' | h' | h' <;> rw [h'] at h <;> cases h⟩
  unfold followOwned
  rcases hstate with h | h | h
  · simp only [h]
    split
    · exact same (by simp [*])
    · exact passed .member 3 (.inr rfl) (by simp [h]) (by simpa using Nat.pos_of_ne_zero ‹_›)
  · simp only [h]
    split
    · exact passed .claiming 4 (.inl rfl) (by simp [h]) (by simp [*])
    · exact same (by simpa [h] using Nat.pos_of_ne_zero ‹_›)
  · simp only [h]
    split
    · exact (enterOff_keepsOwnership 6 State.reset s).station reset_stationLaw
    · exact same (by simpa [h] using Nat.pos_of_ne_zero ‹_›)

theorem followOwned_ownershipLaw {s : State} (h : s.OwnershipLaw) : (followOwned s).OwnershipLaw := by
  unfold followOwned
  split
  case h_3 =>
    split
    · exact (enterOff_keepsOwnership 6 s s).ownership h
    · exact h
  case h_1 | h_2 => split <;> exact h
  all_goals exact h

theorem feedTimer_keepsOwnership (s : State) : KeepsOwnership s (feedTimer s) :=
  .unless fun _ => KeepsOwnership.trans
    (modCtl_keepsOwnership (f := fun c => { c with hostLoss := 0, cond := { c.cond with hostLost := false } }) rfl rfl rfl)
    (.when fun _ => .of_bus rfl)

/-- From LISTENING, where no record is OWNED, the station enters CLAIMING (R47). -/
theorem passClaiming_keepsOwnership {s : State} (cause : Nat) (hs : s.ctl.state = .listening) :
    KeepsOwnership s (passStation .claiming cause s) where
  ownership := id
  station := by
    rintro ⟨howned, -, hleaving, -⟩
    have hnone : ¬0 < s.ownedCount := fun h => by simpa [hs] using howned.mp h
    have hflag : ¬s.ctl.cond.leaving = true := fun h => by simpa [hs] using hleaving.mp h
    exact ⟨iff_of_false hnone (by simp [passStation, raiseStation]), fun _ => .inl rfl,
      iff_of_false hflag (by simp [passStation, raiseStation]), fun h => by cases h⟩

theorem takeListen_keepsOwnership (s : State) : KeepsOwnership s (takeListen s) := by
  refine .when fun _ => KeepsOwnership.trans (t := s.modDue fun d => { d with listen := false }) (.of_bus rfl) (.when fun hs => ?_)
  refine (modCtl_keepsOwnership (f := fun c => { c with listening := c.listening + 1 }) rfl rfl rfl).trans (.when fun _ => ?_)
  refine (passClaiming_keepsOwnership 2 ?_).trans (candidateSearch_keepsOwnership _)
  exact hs

theorem takeLeaving_keepsOwnership (s : State) : KeepsOwnership s (takeLeaving s) := by
  refine .when fun _ => KeepsOwnership.trans (t := s.modDue fun d => { d with leaving := false }) (.of_bus rfl) (.when fun _ => ?_)
  exact (modCtl_keepsOwnership (f := fun c => { c with leaving := c.leaving + 1 }) rfl rfl rfl).trans
    (.when fun _ => enterOff_keepsOwnership ..)

theorem takeHost_keepsOwnership (s : State) : KeepsOwnership s (takeHost s) := by
  refine .when fun _ => KeepsOwnership.trans (t := s.modDue fun d => { d with host := false }) (.of_bus rfl) (.unless fun _ => ?_)
  refine (modCtl_keepsOwnership (f := fun c => { c with hostLoss := c.hostLoss + 1 }) rfl rfl rfl).trans (.when fun _ => ?_)
  exact KeepsOwnership.trans
    (modCtl_keepsOwnership (f := fun c => { c with cond := { c.cond with hostLost := true } }) rfl rfl rfl) (.of_bus rfl)

/-- Entering LEAVING frees the claims; with no record OWNED the station is OFF (R36, R50). -/
theorem enterLeaving_keepsOwnership (s : State) : KeepsOwnership s (enterLeaving s) := by
  have hnone : ∀ t : State, (freeClaims t).claimingCount = 0 := fun t => by
    simp [freeClaims, State.claimingCount, List.countP_eq_zero, freeClaim_isClaiming]
  simp only [enterLeaving]
  set t := freeClaims ((passStation .leaving 5 s).modCtl fun c => { c with leaving := 0, cond := { c.cond with leaving := true } })
  have howned : t.ownedCount = s.ownedCount := ownedCount_freeClaims s.slot.map
  refine .ite (fun _ => enterOff_keepsOwnership ..) fun hpos => ⟨fun h => ?_, fun _ => ?_⟩
  · unfold State.OwnershipLaw at h ⊢
    rw [hnone, howned]
    exact (Nat.le_add_right _ _).trans h
  · refine ⟨iff_of_true (Nat.pos_of_ne_zero hpos) (.inr rfl), fun h => ?_, iff_of_true rfl rfl, fun h => by cases h⟩
    rw [hnone] at h
    cases h

/-! ### Frames and their reports (R19 to R21, R30 to R36) -/

theorem takeStart_keepsOwnership (s : State) : KeepsOwnership s (takeStart s) := by
  refine .when fun _ => KeepsOwnership.trans (t := s.modDue fun d => { d with start := false }) (.of_bus rfl) (.unless fun hs => ?_)
  split
  · exact modLine_keepsOwnership fun hoff => absurd hoff hs
  · exact .refl _

/-- A slot given up is this station's no more, whether it owned or claimed it (R31, R33). -/
theorem giveUpSlot_owned_le (x : Transmission) (winner : Option Nat) (s : State) :
    (giveUpSlot x winner s).ownedCount ≤ s.ownedCount := by
  have free (f : SlotRecord → SlotRecord) (h : ∀ r, (f r).state.isOwned = false) :
      (setSlotState x.slot f s).ownedCount ≤ s.ownedCount := by
    rw [State.ownedCount, setSlotState_slot]
    exact countP_modify_le (fun r hr => by simp [h] at hr) _ _
  cases winner with
  | some n => exact free _ fun _ => rfl
  | none =>
    refine (countP_modify_le (fun r h => ?_) _ _).trans (free _ fun _ => rfl)
    split at h <;> exact h

/-- A claim given up leaves as many records OWNED. -/
theorem giveUpClaim_keepsOwnership {x : Transmission} {n : Nat} {s : State} (hst : (s.slotAt x.slot).state = .claiming n)
    (winner : Option Nat) : KeepsOwnership s (giveUpSlot x winner s) := by
  have hnot : (s.slotAt x.slot).state.isOwned = false := by rw [hst]; rfl
  cases winner with
  | some n => exact setSlotState_keepsOwnership hnot (fun _ => rfl) fun _ => rfl
  | none =>
    refine (setSlotState_keepsOwnership hnot (fun _ => rfl) fun _ => rfl).trans (modSlotAt_keepsOwnership (fun r _ => ?_) fun r h => ?_)
    · split <;> rfl
    · split at h <;> exact h

/-- The third clean claim makes a CLAIMING record OWNED. -/
theorem claimingCount_owned {s : State} {k c : Nat} (hst : (s.slotAt k).state = .claiming c) :
    (s.modSlotAt k fun r => { r with state := .owned 0 }).claimingCount = s.claimingCount - 1 := by
  have hk := lt_of_slotAt_ne (s := s) (k := k) (by rw [hst]; simp)
  rw [State.slotAt, List.getD_eq_getElem _ _ hk] at hst
  exact countP_modify_lt hk (by rw [hst]; rfl) rfl

theorem claimingCount_pos {s : State} {k c : Nat} (hst : (s.slotAt k).state = .claiming c) : 0 < s.claimingCount := by
  have hk := lt_of_slotAt_ne (s := s) (k := k) (by rw [hst]; simp)
  rw [State.slotAt, List.getD_eq_getElem _ _ hk] at hst
  exact List.countP_pos_iff.mpr ⟨_, List.getElem_mem hk, by rw [hst]; rfl⟩

/-- The report of a claim frame: a claim goes on, becomes OWNED, or is given up (R30, R31). -/
theorem reportClaim_keepsOwnership {x : Transmission} {n : Nat} {s : State} (hst : (s.slotAt x.slot).state = .claiming n) (e : TxEnd) :
    KeepsOwnership s (reportClaim x e n s) := by
  have hrecord {r : SlotRecord} (hr : s.slot.map[x.slot]? = some r) : r.state = .claiming n := by
    rw [← hst, State.slotAt, List.getD_eq_getElem?_getD, hr]
    rfl
  unfold reportClaim
  split
  · refine .ite (fun _ => .of_records rfl rfl rfl ?_ ?_ fun _ => id) fun _ => ?_
    · exact countP_modify_of_same fun r hr => by rw [hrecord hr]; rfl
    · exact le_of_eq (countP_modify_of_same fun r hr => by rw [hrecord hr]; rfl)
    · have hpos := claimingCount_pos hst
      set t := raise .slot 1 x.slot 0 (BitVec.ofNat 32 (s.modSlotAt x.slot fun r => { r with state := .owned 0 }).ownedCount)
        (s.modSlotAt x.slot fun r => { r with state := .owned 0 })
      have howned : t.ownedCount = s.ownedCount + 1 := ownedCount_owned hst
      have hclaiming : t.claimingCount = s.claimingCount - 1 := claimingCount_owned hst
      refine ⟨fun h => followOwned_ownershipLaw ?_, ?_⟩
      · unfold State.OwnershipLaw at h ⊢
        rw [howned, hclaiming]
        show _ ≤ s.ctl.config.want
        omega
      · rintro ⟨-, hserving, hleaving, -⟩
        exact followOwned_stationLaw ((hserving hpos).imp_right .inl) (fun _ => hserving hpos) hleaving
  · exact (giveUpClaim_keepsOwnership hst _).trans (.of_bus rfl)
  · exact .refl s

/-- A slot of this station given up, and station control after it (R33, R36). -/
theorem giveUpOwned_keepsOwnership {s t : State} (hctl : t.ctl = s.ctl) (howned : t.ownedCount ≤ s.ownedCount)
    (hclaiming : t.claimingCount ≤ s.claimingCount) (hstate : s.ctl.state = .member ∨ s.ctl.state = .leaving) :
    KeepsOwnership s (followOwned t) where
  ownership h := followOwned_ownershipLaw <| by
    unfold State.OwnershipLaw at h ⊢
    rw [hctl]
    omega
  station := by
    rintro ⟨-, hserving, hleaving, -⟩
    refine followOwned_stationLaw ?_ (fun h => ?_) ?_
    · rw [hctl]
      exact .inr hstate
    · rw [hctl]
      exact hserving (lt_of_lt_of_le h hclaiming)
    · rw [hctl]
      exact hleaving

theorem giveUpSlot_ctl (x : Transmission) (winner : Option Nat) (s : State) : (giveUpSlot x winner s).ctl = s.ctl :=
  (congrArg State.ctl (giveUpSlot_outsideMap x winner s) :)

/-- The report of a slot frame in MEMBER (R33, R34). -/
theorem reportOwned_keepsOwnership {x : Transmission} {n : Nat} {s : State} (hst : (s.slotAt x.slot).state = .owned n)
    (hstate : s.ctl.state = .member) (e : TxEnd) : KeepsOwnership s (reportOwned x e n s) := by
  have clash (m : Nat) : KeepsOwnership s (s.modSlotAt x.slot fun r => { r with state := .owned m }) := by
    refine modSlotAt_keepsOwnership (fun r hr => ?_) fun r h => by simp [SlotState.isClaiming] at h
    have hr' : s.slotAt x.slot = r := by rw [State.slotAt, List.getD_eq_getElem?_getD, hr]; rfl
    rw [← hr', hst]
    rfl
  unfold reportOwned
  split
  · exact clash 0
  · refine .ite (fun _ => clash 1) fun _ => ?_
    exact giveUpOwned_keepsOwnership (giveUpSlot_ctl ..) (giveUpSlot_owned_le ..) (giveUpSlot_claiming_le ..) (.inl hstate)
  · exact .refl s

theorem reportToSlots_keepsOwnership (x : Transmission) (e : TxEnd) (s : State) : KeepsOwnership s (reportToSlots x e s) := by
  unfold reportToSlots
  split
  · exact reportClaim_keepsOwnership ‹_› e
  · split
    · next hstate =>
      refine giveUpOwned_keepsOwnership (t := becomeFree x.slot s) ?_ ?_ ?_ (.inr hstate)
      · exact (congrArg State.ctl (setSlotState_outsideMap ..) :)
      · rw [State.ownedCount, becomeFree, setSlotState_slot]
        exact countP_modify_le (fun r h => by simp [SlotState.isOwned] at h) _ _
      · exact setSlotState_claiming_le (fun r h => by simp [SlotState.isClaiming] at h) _ _
    · exact reportOwned_keepsOwnership ‹_› ‹_› e
    all_goals exact .refl s
  · exact .refl s

theorem reportToLists_keepsOwnership (x : Transmission) (e : TxEnd) (s : State) : KeepsOwnership s (reportToLists x e s) := by
  have answered : KeepsOwnership s (match x.answer with | some id => answerSent id s | none => s) := by
    split
    · exact .of_bus rfl
    · exact .refl s
  unfold reportToLists
  split
  · dsimp only
    split
    · exact answered.trans (.of_requests (requestSent_outsideRequests ..))
    · exact answered
  all_goals exact .refl s

theorem reportEnd_keepsOwnership (x : Transmission) (e : TxEnd) (s : State) : KeepsOwnership s (reportEnd x e s) :=
  .ite (fun _ => (reportToSlots_keepsOwnership x e s).trans (reportToLists_keepsOwnership ..))
    fun _ => (reportToLists_keepsOwnership x e s).trans (reportToSlots_keepsOwnership ..)

/-- A line at rest in OFF stays so without its frame. -/
theorem LineUnit.restsInOff.noFrame {l m : LineUnit} (h : l.restsInOff) (htx : m.tx = none) (hlost : m.lost = l.lost) : m.restsInOff :=
  ⟨hlost.trans h.1, fun x hx => by rw [htx] at hx; cases hx⟩

/-- A frame that ends LOST over an entering of OFF gives no report (R21). -/
theorem loseTransmission_keepsOwnership {x y : Transmission} {s : State} (hx : s.line.tx = some y) (hy : x.offSince = y.offSince) :
    KeepsOwnership s (loseTransmission x s) :=
  modLine_keepsOwnership fun _ h => h.noFrame rfl (if_pos (hy.trans (h.2 y hx).2))

theorem abandonTransmission_keepsOwnership (x : Transmission) (s : State) : KeepsOwnership s (abandonTransmission x s) :=
  (modLine_keepsOwnership (f := fun l => { l with tx := none }) fun _ h => h.noFrame rfl rfl).trans (reportEnd_keepsOwnership ..)

theorem takeSendPoint_keepsOwnership {s : State} (hs : s.ctl.state ≠ .off) : KeepsOwnership s (takeSendPoint s) := by
  unfold takeSendPoint
  split
  · refine .unless fun _ => .ite (fun _ => abandonTransmission_keepsOwnership ..) fun _ => ?_
    split
    · exact modLine_keepsOwnership fun hoff => absurd hoff hs
    · exact modLine_keepsOwnership fun hoff => absurd hoff hs
  · exact .refl s

theorem takeSent_keepsOwnership (s : State) : KeepsOwnership s (takeSent s) := by
  unfold takeSent
  split
  · refine .when fun _ => KeepsOwnership.trans ?_ (reportEnd_keepsOwnership ..)
    exact modLine_keepsOwnership fun _ h => h.noFrame rfl rfl
  · exact .refl s

end Sys2Proof.Machine

namespace Sys2Proof.Machine

/-! ### Round boundaries and the moment (R16 to R18) -/

theorem takeAges_keepsOwnership (s : State) : KeepsOwnership s (takeAges s) := by
  refine .when fun _ => KeepsOwnership.trans (t := s.modDue fun d => { d with ages := false }) (.of_bus rfl) (.unless fun _ => ?_)
  refine .of_image (forEntries_outsideImage _ (fun i s => ?_) _)
  simp only [ageEntry]
  split <;> simp

theorem takeWaits_keepsOwnership (s : State) : KeepsOwnership s (takeWaits s) :=
  .when fun _ => KeepsOwnership.trans (t := s.modDue fun d => { d with waits := false }) (.of_bus rfl)
    (.unless fun _ => foldl_keepsOwnership (fun s id => .of_peers (waitRecord_outsidePeers s id)) _ _)

theorem takeDeadline_keepsOwnership (s : State) : KeepsOwnership s (takeDeadline s) := .of_units (takeDeadline_outsideUnits s)

theorem takePeriods_keepsOwnership (s : State) : KeepsOwnership s (takePeriods s) :=
  .of_bus (congrArg State.bus (takePeriods_outsideUnits s) :)

theorem takeCall_keepsOwnership (s : State) : KeepsOwnership s (takeCall s) := .of_units (takeCall_outsideUnits s)

theorem takeReactions_keepsOwnership (s : State) : KeepsOwnership s (takeReactions s) :=
  (takeListen_keepsOwnership s).trans <| (takeLeaving_keepsOwnership _).trans <| (takeHost_keepsOwnership _).trans <|
    (takeAges_keepsOwnership _).trans <| (takeWaits_keepsOwnership _).trans <| (takeDeadline_keepsOwnership _).trans
      (takePeriods_keepsOwnership _)

theorem countBoundary_keepsOwnership (s : State) : KeepsOwnership s (countBoundary s) := by
  refine (takeReactions_keepsOwnership s).trans (.unless fun _ => ?_)
  have counted (t : State) : KeepsOwnership t (t.modSlot fun u => { u with round := u.round + 1 }) :=
    .of_records rfl rfl rfl rfl le_rfl fun _ => id
  have due (t : State) : KeepsOwnership t (dueAtBoundary t) := .of_bus rfl
  exact (counted _).trans <| (candidateSearch_keepsOwnership _).trans (due _)

theorem takeSlotEnd_keepsOwnership (s : State) : KeepsOwnership s (takeSlotEnd s) := by
  refine (takeSilence_keepsOwnership s).trans (.when fun _ => ?_)
  exact KeepsOwnership.trans (t := (takeSilence s).modDue fun d => { d with boundary := false }) (.of_bus rfl)
    (countBoundary_keepsOwnership _)

theorem takeAllDue_keepsOwnership (s : State) : KeepsOwnership s (takeAllDue s) :=
  (takeSlotEnd_keepsOwnership s).trans <| (takeReactions_keepsOwnership _).trans (takeStart_keepsOwnership _)

theorem takeMoment_keepsOwnership (s : State) : KeepsOwnership s (takeMoment s) :=
  (takeAllDue_keepsOwnership s).trans (takeCall_keepsOwnership _)

theorem settle_keepsOwnership (s : State) : KeepsOwnership s (settle s) :=
  .when fun _ => (takeMoment_keepsOwnership s).trans (finish_keepsOwnership _)

theorem enterRecord_bus (o : Origin) (g : Nat) (k : RequestKind) (i : Nat) (v : Option Word) (p : Option Nat) (c : Bool) (s : State) :
    (enterRecord o g k i v p c s).bus = s.bus := rfl

theorem giveDiscovery_keepsOwnership (s : State) : KeepsOwnership s (giveDiscovery s) := by
  refine .when fun _ => ?_
  split
  · unfold enterDiscovery
    split
    · exact .refl s
    · exact KeepsOwnership.trans (.of_peers (modPeer_outsidePeers ..)) (.of_bus (enterRecord_bus ..))
  · exact .refl s

theorem passMoment_keepsOwnership (s : State) : KeepsOwnership s (passMoment s) :=
  .when fun _ => (takeMoment_keepsOwnership s).trans <| (giveDiscovery_keepsOwnership _).trans <|
    (giveDiscovery_keepsOwnership _).trans <| (giveDiscovery_keepsOwnership _).trans <| (giveDiscovery_keepsOwnership _).trans
      (finish_keepsOwnership _)

theorem atEnd_isOwned (r : SlotRecord) : r.atEnd.state.isOwned = r.state.isOwned := by
  unfold SlotRecord.atEnd
  dsimp only
  cases h : r.state <;> dsimp only
  repeat' split
  all_goals rfl

theorem passSlot_keepsOwnership (s : State) : KeepsOwnership s (passSlot s) :=
  .unless fun hs =>
    (modSlotAt_keepsOwnership (f := SlotRecord.atEnd) (fun r _ => atEnd_isOwned r) fun r h => by rwa [atEnd_isClaiming] at h).trans <|
      .of_records rfl rfl rfl rfl le_rfl fun hoff => absurd hoff hs

theorem adopt_keepsOwnership (slot bytes : Nat) (s : State) : KeepsOwnership s (adopt slot bytes s) := by
  have aligned : KeepsOwnership s ((s.modSlot fun u =>
      { u with counter := slot, timer := Config.sendPoint + BitVec.ofNat 10 (frameBits bytes + Config.endOfFrameBits) }).modDue
        fun d => { d with start := false }) := .of_records rfl rfl rfl rfl le_rfl fun _ => id
  exact aligned.trans (.when fun _ => countBoundary_keepsOwnership _)

theorem earlyReactions_keepsOwnership (s : State) : KeepsOwnership s (earlyReactions s) :=
  (KeepsOwnership.when fun _ => takeListen_keepsOwnership s).trans <| (KeepsOwnership.when fun _ => takeLeaving_keepsOwnership _).trans <|
    (KeepsOwnership.when fun _ => takeHost_keepsOwnership _).trans <| (KeepsOwnership.when fun _ => takeAges_keepsOwnership _).trans <|
      (KeepsOwnership.when fun _ => takeWaits_keepsOwnership _).trans <|
        (KeepsOwnership.when fun _ => takeDeadline_keepsOwnership _).trans (.when fun _ => takePeriods_keepsOwnership _)

/-! ### Arrivals (R9 to R13, R21) -/

theorem reportLost_keepsOwnership (cls : ArrivalClass) (frame : Option Frame) (waiting : List Transmission) (s : State) :
    KeepsOwnership s (reportLost cls frame waiting s) := foldl_keepsOwnership (fun _ _ => reportEnd_keepsOwnership ..) _ s

theorem imageArrival_keepsOwnership (f : Frame) (v : Verdict) (s : State) : KeepsOwnership s (imageArrival f v s) :=
  .of_image (imageArrival_outsideImage f v s)

theorem answersTaken_keepsOwnership (f : Frame) (s : State) : KeepsOwnership s (answersTaken f s) :=
  .of_bus (by rw [answersTaken_frame]; rfl)

theorem requestTaken_keepsOwnership (f : Frame) (s : State) : KeepsOwnership s (requestTaken f s) :=
  .of_bus (congrArg State.bus (requestTaken_outsideAnswers f s) :)

theorem blocksTake_keepsOwnership (f : Frame) (v : Verdict) (winner : Bool) (waiting : List Transmission) (o : Order) (s : State) :
    KeepsOwnership s (blocksTake f v winner waiting o s) := by
  refine .ite (fun _ => ?_) fun _ => ?_
  · exact (mapArrival_keepsOwnership ..).trans <| (reportLost_keepsOwnership ..).trans <| (imageArrival_keepsOwnership ..).trans <|
      (requestTaken_keepsOwnership ..).trans (answersTaken_keepsOwnership ..)
  · exact (KeepsOwnership.unless fun _ => imageArrival_keepsOwnership ..).trans <|
      (KeepsOwnership.unless fun _ => answersTaken_keepsOwnership ..).trans <| (mapArrival_keepsOwnership ..).trans <|
        (KeepsOwnership.when fun _ => imageArrival_keepsOwnership ..).trans <|
          (KeepsOwnership.when fun _ => answersTaken_keepsOwnership ..).trans <|
            (requestTaken_keepsOwnership ..).trans (reportLost_keepsOwnership ..)

theorem handArrival_keepsOwnership (f : Frame) (bytes : Nat) (waiting : List Transmission) (s : State) :
    KeepsOwnership s (handArrival f bytes waiting s) := by
  have early : KeepsOwnership s (adoptedEarly f bytes s) :=
    .when fun _ => (adopt_keepsOwnership ..).trans (earlyReactions_keepsOwnership _)
  have late (t : State) : KeepsOwnership t (adoptedLate f bytes s t) := .when fun _ => adopt_keepsOwnership ..
  rw [handArrival_eq]
  exact early.trans <| (KeepsOwnership.of_peers (peerArrival_outsidePeers f _)).trans <| (blocksTake_keepsOwnership ..).trans (late _)

theorem otherArrival_keepsOwnership (cls : ArrivalClass) (frame : Option Frame) (bytes : Nat) (s : State) :
    KeepsOwnership s (otherArrival cls frame bytes s) := by
  have hcounted : KeepsOwnership s (s.modLine fun l => { countArrival cls l with lost := [] }) :=
    modLine_keepsOwnership fun _ h => ⟨rfl, fun x hx => h.2 x (by cases cls <;> exact hx)⟩
  have inside (b : Bool) (t : State) : KeepsOwnership t { t with inArrival := b } := .of_bus rfl
  have ended (t : State) : KeepsOwnership t (arrivalOver t) := .of_bus rfl
  refine hcounted.trans ?_
  simp only [otherArrival]
  split
  · refine .ite (fun _ => reportLost_keepsOwnership ..) fun _ => ?_
    exact (inside true _).trans <| (handArrival_keepsOwnership ..).trans (ended _)
  · refine KeepsOwnership.trans (.unless fun _ => ?_) (reportLost_keepsOwnership ..)
    exact .of_peers (setFault_outsidePeers ..)
  · exact reportLost_keepsOwnership ..

theorem closeArrival_keepsOwnership (r : Reception) (cls : ArrivalClass) (frame : Option Frame) (s : State) :
    KeepsOwnership s (closeArrival r cls frame s) :=
  (modLine_keepsOwnership (f := fun l => { l with receiver := .waiting }) fun _ => id).trans <|
    (reportActivity_keepsOwnership ..).trans (.unless fun _ => otherArrival_keepsOwnership ..)

theorem takeArrivalEnd_keepsOwnership (s : State) : KeepsOwnership s (takeArrivalEnd s) := by
  unfold takeArrivalEnd
  split
  · exact .refl s
  · exact closeArrival_keepsOwnership ..

theorem cutArrival_keepsOwnership (s : State) : KeepsOwnership s (cutArrival s) := by
  unfold cutArrival
  split
  · exact .refl s
  · exact closeArrival_keepsOwnership ..

/-! ### Medium holds and bit times (R1 to R4, R14 to R16) -/

theorem takeHold_keepsOwnership (s : State) : KeepsOwnership s (takeHold s) := by
  refine KeepsOwnership.trans (t := raiseStation 4 0 0 (s.modLine fun l => { l with hold := true, holds := satInc l.holds }))
    (.of_records rfl rfl rfl rfl le_rfl fun _ => id) ?_
  have cut (t : State) : KeepsOwnership t (cutAndFree t) :=
    .ite (fun _ => (cutArrival_keepsOwnership t).trans (holdClaims_keepsOwnership _))
      fun _ => (holdClaims_keepsOwnership t).trans (cutArrival_keepsOwnership _)
  have abandoned (t : State) : KeepsOwnership t (abandonAny t) := by
    unfold abandonAny
    split
    · exact abandonTransmission_keepsOwnership ..
    · exact .refl _
  exact (cut _).trans (abandoned _)

theorem takeRelease_keepsOwnership (s : State) : KeepsOwnership s (takeRelease s) :=
  .of_records rfl rfl rfl rfl le_rfl fun _ => id

theorem measure_keepsOwnership (level : Level) (s : State) : KeepsOwnership s (s.modLine (·.measure level)) :=
  modLine_keepsOwnership fun _ h => by
    unfold LineUnit.restsInOff
    rwa [measure_lost, measure_tx]

theorem readBack_keepsOwnership (level : Level) (s : State) : KeepsOwnership s (readBack level s) := by
  unfold readBack
  split
  · exact .refl s
  · next x hx =>
    split
    · exact .refl s
    · refine .ite (fun _ => modLine_keepsOwnership fun _ h => ⟨h.1, fun y hy => ?_⟩) fun _ => loseTransmission_keepsOwnership hx rfl
      cases hy
      exact ⟨by simp, (h.2 x hx).2⟩

theorem hearBit_keepsOwnership (level : Level) (s : State) : KeepsOwnership s (hearBit level s) := by
  refine (measure_keepsOwnership level s).trans (.ite (fun _ => ?_) fun _ => ?_)
  · exact (takeHold_keepsOwnership _).trans (finish_keepsOwnership _)
  · have heard (before : Nat) (t : State) : KeepsOwnership t (hearAtReceiver level before t) := by
      unfold hearAtReceiver
      exact modLine_keepsOwnership fun _ => id
    exact (heard _ _).trans (readBack_keepsOwnership level _)

theorem takeLineEnd_keepsOwnership (s : State) : KeepsOwnership s (takeLineEnd s) :=
  (KeepsOwnership.when fun _ => takeArrivalEnd_keepsOwnership s).trans (.when fun _ => takeRelease_keepsOwnership _)

theorem stepTimer_keepsOwnership (s : State) : KeepsOwnership s (stepTimer s) :=
  .unless fun hs => .ite (fun _ => passSlot_keepsOwnership s) fun _ =>
    KeepsOwnership.trans (t := s.modSlot fun u => { u with timer := u.timer + 1 }) (.of_records rfl rfl rfl rfl le_rfl fun _ => id)
      (.when fun _ => takeSendPoint_keepsOwnership hs)

theorem endBit_keepsOwnership (s : State) : KeepsOwnership s (endBit s) := by
  refine (takeSent_keepsOwnership s).trans ?_
  have line (t : State) : KeepsOwnership t (finish (takeLineEnd t)) := (takeLineEnd_keepsOwnership t).trans (finish_keepsOwnership _)
  refine .ite (fun _ => .ite (fun _ => ?_) fun _ => ?_) fun _ => ?_
  · exact .ite (fun _ => (line _).trans (stepTimer_keepsOwnership _)) fun _ => line _
  · exact (stepTimer_keepsOwnership _).trans <| (takeAllDue_keepsOwnership _).trans <| (finish_keepsOwnership _).trans
      (takeLineEnd_keepsOwnership _)
  · exact (stepTimer_keepsOwnership _).trans (takeLineEnd_keepsOwnership _)

theorem bitTime_keepsOwnership (level : Level) (s : State) : KeepsOwnership s (bitTime level s) :=
  (passMoment_keepsOwnership s).trans <| (KeepsOwnership.of_units (pastBeginning_outsideUnits _)).trans <|
    (hearBit_keepsOwnership level _).trans <| (endBit_keepsOwnership _).trans (finish_keepsOwnership _)

theorem passBits_keepsOwnership (rxd : List Level) (s : State) : KeepsOwnership s (passBits rxd s) :=
  foldl_keepsOwnership (fun s level => bitTime_keepsOwnership level s) rxd s

end Sys2Proof.Machine

namespace Sys2Proof.Machine

/-! ### The effects of the commands -/

/-- CONFIGURE, in OFF, leaves every record FREE (R22, R44). -/
theorem configureEffect_keepsOwnership (args : List Word) (s : State) : KeepsOwnership s (configureEffect args s).state := by
  unfold configureEffect
  split
  · exact .refl s
  · split
    · exact .refl s
    · next hoff _ c _ =>
      have howned : (List.replicate c.slots SlotRecord.reset).countP (·.state.isOwned) = 0 := by
        simp [List.countP_replicate, SlotRecord.reset, SlotState.isOwned]
      have hclaiming : (List.replicate c.slots SlotRecord.reset).countP (·.state.isClaiming) = 0 := by
        simp [List.countP_replicate, SlotRecord.reset, SlotState.isClaiming]
      refine ⟨fun _ => ?_, ?_⟩
      · show List.countP _ (List.replicate c.slots SlotRecord.reset) + List.countP _ (List.replicate c.slots SlotRecord.reset) ≤ c.want
        rw [howned, hclaiming]
        exact Nat.zero_le _
      · rintro ⟨-, -, hleaving, hrest⟩
        have hs : s.ctl.state = .off := not_not.mp hoff
        refine ⟨iff_of_false (fun h => ?_) ?_, fun h => ?_, hleaving, hrest⟩
        · have h : 0 < (List.replicate c.slots SlotRecord.reset).countP (·.state.isOwned) := h
          exact absurd howned h.ne'
        · show ¬(s.ctl.state = .member ∨ s.ctl.state = .leaving)
          simp [hs]
        · have h : 0 < (List.replicate c.slots SlotRecord.reset).countP (·.state.isClaiming) := h
          exact absurd hclaiming h.ne'

/-- Leaving OFF by JOIN takes no record (R46). -/
theorem joinAs_keepsOwnership {st : StationState} (hst : st = .listening ∨ st = .observer) {s : State} (hs : s.ctl.state = .off) :
    KeepsOwnership s (joinAs st s) where
  ownership := id
  station := by
    rintro ⟨howned, hclaiming, hleaving, -⟩
    have hnone : ¬0 < s.ownedCount := fun h => by simpa [hs] using howned.mp h
    have hnone' : ¬0 < s.claimingCount := fun h => by simpa [hs] using hclaiming h
    have hflag : ¬s.ctl.cond.leaving = true := fun h => by simpa [hs] using hleaving.mp h
    have hstate : (joinAs st s).ctl.state = st := rfl
    refine ⟨iff_of_false hnone ?_, fun h => absurd h hnone', iff_of_false hflag ?_, fun h => ?_⟩
    · rcases hst with rfl | rfl <;> simp [hstate]
    · rcases hst with rfl | rfl <;> simp [hstate]
    · rw [hstate] at h
      rcases hst with rfl | rfl <;> cases h

theorem joinEffect_keepsOwnership (args : List Word) (s : State) : KeepsOwnership s (joinEffect args s).state := by
  unfold joinEffect
  split
  · exact .refl s
  · next hoff =>
    have joined {st : StationState} (hst : st = .listening ∨ st = .observer) : KeepsOwnership s (finish (joinAs st s)) :=
      (joinAs_keepsOwnership hst (not_not.mp hoff)).trans (finish_keepsOwnership _)
    split
    · exact .refl s
    · split
      · split
        · exact .refl s
        · exact joined (.inl rfl)
      · split
        · exact joined (.inr rfl)
        · exact .refl s

theorem leaveEffect_keepsOwnership (args : List Word) (s : State) : KeepsOwnership s (leaveEffect args s).state := by
  have off : KeepsOwnership s (finish (enterOff 5 s)) := (enterOff_keepsOwnership 5 s s).trans (finish_keepsOwnership _)
  have leaving : KeepsOwnership s (finish (enterLeaving s)) := (enterLeaving_keepsOwnership s).trans (finish_keepsOwnership _)
  unfold leaveEffect
  split
  · exact .refl s
  · exact off
  · exact off
  · exact leaving
  · exact leaving
  · exact .refl s

theorem setPointEffect_keepsOwnership (args : List Word) (s : State) : KeepsOwnership s (setPointEffect args s).state := by
  unfold setPointEffect
  split
  · exact .refl s
  · split
    · refine KeepsOwnership.trans (t := setPointValue (argN args 0) (arg args 1) s) (.of_bus rfl) ?_
      exact (feedTimer_keepsOwnership _).trans (finish_keepsOwnership _)
    · exact .refl s

theorem feedEffect_keepsOwnership (args : List Word) (s : State) : KeepsOwnership s (feedEffect args s).state :=
  (feedTimer_keepsOwnership s).trans (finish_keepsOwnership _)

/-- SET_CONDITION leaves the LEAVING flag (R54). -/
theorem setConditionEffect_keepsOwnership (args : List Word) (s : State) : KeepsOwnership s (setConditionEffect args s).state := by
  have set (b : Bool) : KeepsOwnership s (setLocalFault b s) :=
    modCtl_keepsOwnership (f := fun c => { c with cond := { c.cond with localFault := b } }) rfl rfl rfl
  unfold setConditionEffect
  split
  · exact set true
  · split
    · exact set false
    · exact .refl s

theorem finish_bus (s : State) : (finish s).bus = s.bus := by rw [finish_frame]; rfl

theorem bus_ite {p : Prop} [Decidable p] {s a b : State} (ha : p → a.bus = s.bus) (hb : ¬p → b.bus = s.bus) :
    (if p then a else b).bus = s.bus := by
  split
  · next h => exact ha h
  · next h => exact hb h

theorem bus_of_image {s t : State} (h : t.outsideImage = s.outsideImage) : t.bus = s.bus := (congrArg State.bus h :)

theorem bus_of_units {s t : State} (h : t.outsideUnits = s.outsideUnits) : t.bus = s.bus := (congrArg State.bus h :)

theorem bus_of_requests {s t : State} (h : t.outsideRequests = s.outsideRequests) : t.bus = s.bus := (congrArg State.bus h :)

theorem bus_of_peers {s t : State} (h : t.outsidePeers = s.outsidePeers) : t.bus = s.bus := (congrArg State.bus h :)

/-- A command that is refused leaves them. -/
theorem bus_refused {p : Prop} [Decidable p] {s : State} {o : ResultCode} {r : Reply} (h : ¬p → r.state.bus = s.bus) :
    (if p then Reply.only o s else r).state.bus = s.bus := by
  split
  · rfl
  · next hp => exact h hp

/-- A command of the catalogue, the image table, the watches, the peer table, the request list, the snapshot units or the event queue leaves
line, slot unit and station control. -/
theorem definePointEffect_bus (args : List Word) (s : State) : (definePointEffect args s).state.bus = s.bus := by
  unfold definePointEffect
  dsimp only
  repeat' split
  all_goals rfl

theorem clearCatalogueEffect_bus (args : List Word) (s : State) : (clearCatalogueEffect args s).state.bus = s.bus := by
  unfold clearCatalogueEffect
  split <;> rfl

theorem getPointEffect_bus (args : List Word) (s : State) : (getPointEffect args s).state.bus = s.bus := by
  unfold getPointEffect
  split <;> rfl

theorem judgeSubscribed_bus (i : Nat) (s : State) : (judgeSubscribed i s).bus = s.bus := by
  unfold judgeSubscribed
  split
  · exact bus_of_image (passEntry_outsideImage ..)
  · exact bus_of_image (resolveEntry_outsideImage ..)

theorem subscribeEffect_bus (args : List Word) (s : State) : (subscribeEffect args s).state.bus = s.bus := by
  iterate 6 refine bus_refused fun _ => ?_
  exact (finish_bus _).trans (judgeSubscribed_bus ..)

theorem unsubscribeEffect_bus (args : List Word) (s : State) : (unsubscribeEffect args s).state.bus = s.bus := by
  unfold unsubscribeEffect
  dsimp only
  split
  · rfl
  · split
    · rfl
    · exact (finish_bus _).trans <| (bus_of_units (missEntry_outsideUnits _ _)).trans rfl

theorem readImageEffect_bus (args : List Word) (s : State) : (readImageEffect args s).state.bus = s.bus := by
  unfold readImageEffect
  split <;> rfl

theorem setWatchEffect_bus (args : List Word) (s : State) : (setWatchEffect args s).state.bus = s.bus := by
  have evaluated (i : Nat) (t : State) : (evaluateIfFresh i t).bus = t.bus := by
    unfold evaluateIfFresh
    split
    · exact bus_of_image (evaluateWatch_outsideImage ..)
    · rfl
  unfold setWatchEffect
  dsimp only
  split
  · rfl
  · split
    · rfl
    · split
      · rfl
      · split
        · exact (finish_bus _).trans <| (bus_of_units (takeCall_outsideUnits _)).trans (evaluated ..)
        · rfl

theorem clearWatchEffect_bus (args : List Word) (s : State) : (clearWatchEffect args s).state.bus = s.bus := by
  unfold clearWatchEffect
  dsimp only
  split
  · rfl
  · split <;> rfl

theorem readPeerEffect_bus (args : List Word) (s : State) : (readPeerEffect args s).state.bus = s.bus := by
  unfold readPeerEffect
  dsimp only
  split
  · rfl
  · exact bus_of_peers (modPeer_outsidePeers ..)

theorem readShapeEffect_bus (args : List Word) (s : State) : (readShapeEffect args s).state.bus = s.bus := by
  unfold readShapeEffect
  dsimp only
  split
  · rfl
  · split <;> rfl

theorem refreshPeerEffect_bus (args : List Word) (s : State) : (refreshPeerEffect args s).state.bus = s.bus := by
  unfold refreshPeerEffect
  dsimp only
  split
  · rfl
  · split
    · exact (finish_bus _).trans <| (bus_of_image (imageRetried_outsideImage ..)).trans (bus_of_peers (modPeer_outsidePeers ..))
    · rfl

theorem readSlotEffect_bus (args : List Word) (s : State) : (readSlotEffect args s).state.bus = s.bus := by
  unfold readSlotEffect
  split <;> rfl

theorem enterApplication_bus (args : List Word) (kind : RequestKind) (s : State) : (enterApplication args kind s).state.bus = s.bus := by
  unfold enterApplication
  exact (finish_bus _).trans <| bus_ite (fun _ => (bus_of_requests (endRecord_outsideRequests ..)).trans rfl) fun _ => rfl

theorem sendRequestEffect_bus (args : List Word) (s : State) : (sendRequestEffect args s).state.bus = s.bus := by
  iterate 2 refine bus_refused fun _ => ?_
  split
  · rfl
  · iterate 4 refine bus_refused fun _ => ?_
    exact enterApplication_bus ..

theorem takeResultEffect_bus (args : List Word) (s : State) : (takeResultEffect args s).state.bus = s.bus := by
  unfold takeResultEffect
  split
  · rfl
  · split <;> rfl

theorem cancelRequestEffect_bus (args : List Word) (s : State) : (cancelRequestEffect args s).state.bus = s.bus := by
  unfold cancelRequestEffect
  split
  · rfl
  · split
    · rfl
    · refine (finish_bus _).trans (bus_of_requests ?_)
      unfold cancelRecord
      rw [removeRecord_outsideRequests]
      split
      · exact breakChain_outsideRequests ..
      · rfl

theorem setSnapshotEffect_bus (args : List Word) (s : State) : (setSnapshotEffect args s).state.bus = s.bus := by
  unfold setSnapshotEffect
  split
  · rfl
  · refine bus_refused fun _ => ?_
    split
    · rfl
    · exact bus_of_units (modUnit_outsideUnits ..)
    · split
      · exact bus_of_units (modUnit_outsideUnits ..)
      · rfl

theorem fireSnapshotEffect_bus (args : List Word) (s : State) : (fireSnapshotEffect args s).state.bus = s.bus := by
  unfold fireSnapshotEffect
  dsimp only
  split
  · rfl
  · split
    · rfl
    · exact (finish_bus _).trans <| (bus_of_units (takeCall_outsideUnits _)).trans (bus_of_units (giveTriggers_outsideUnits ..))

theorem rearmSnapshotEffect_bus (args : List Word) (s : State) : (rearmSnapshotEffect args s).state.bus = s.bus := by
  unfold rearmSnapshotEffect
  split
  · rfl
  · split
    case h_2 => exact bus_of_units (modUnit_outsideUnits ..)
    all_goals rfl

theorem readSnapshotEffect_bus (args : List Word) (s : State) : (readSnapshotEffect args s).state.bus = s.bus := by
  unfold readSnapshotEffect
  repeat' split
  all_goals rfl

theorem takeEventEffect_bus (args : List Word) (s : State) : (takeEventEffect args s).state.bus = s.bus := by
  unfold takeEventEffect
  split <;> rfl

/-- The effect of every command keeps both laws. -/
theorem effectOf_keepsOwnership (n : Nat) (args : List Word) (s : State) : KeepsOwnership s (effectOf n args s).state := by
  unfold effectOf
  split
  · exact configureEffect_keepsOwnership args s
  · exact .of_bus (definePointEffect_bus args s)
  · exact .of_bus (clearCatalogueEffect_bus args s)
  · exact joinEffect_keepsOwnership args s
  · exact leaveEffect_keepsOwnership args s
  · exact setConditionEffect_keepsOwnership args s
  · exact feedEffect_keepsOwnership args s
  · exact setPointEffect_keepsOwnership args s
  · exact .of_bus (getPointEffect_bus args s)
  · exact .of_bus (subscribeEffect_bus args s)
  · exact .of_bus (unsubscribeEffect_bus args s)
  · exact .of_bus (readImageEffect_bus args s)
  · exact .of_bus (setWatchEffect_bus args s)
  · exact .of_bus (clearWatchEffect_bus args s)
  · exact .of_bus (readPeerEffect_bus args s)
  · exact .of_bus (readShapeEffect_bus args s)
  · exact .of_bus (refreshPeerEffect_bus args s)
  · exact .of_bus (readSlotEffect_bus args s)
  · exact .of_bus (sendRequestEffect_bus args s)
  · exact .of_bus (takeResultEffect_bus args s)
  · exact .of_bus (cancelRequestEffect_bus args s)
  · exact .of_bus (setSnapshotEffect_bus args s)
  · exact .of_bus (fireSnapshotEffect_bus args s)
  · exact .of_bus (rearmSnapshotEffect_bus args s)
  · exact .of_bus (readSnapshotEffect_bus args s)
  · exact .of_bus (takeEventEffect_bus args s)
  · exact .of_bus rfl
  · exact .of_bus rfl

/-! ### Every step -/

theorem takeCommand_keepsOwnership {effect : List Word → State → Reply} (word : Word) (s : State)
    (h : ∀ args s, KeepsOwnership s (effect args s).state) : KeepsOwnership s (takeCommand word effect s) := by
  unfold takeCommand
  split
  · exact .refl s
  · exact .of_bus rfl
  · split
    · exact .of_bus rfl
    · exact (settle_keepsOwnership s).trans <| (h (settle s).host.args (settle s)).trans (.of_bus rfl)

/-- A reset leaves no record, and the station in OFF (R172). -/
theorem resetState_keepsOwnership (phase : ResetPhase) (s : State) : KeepsOwnership s (resetState phase s) where
  ownership _ := reset_ownershipLaw
  station _ := reset_stationLaw

theorem takeReset_keepsOwnership (word : Word) (s : State) : KeepsOwnership s (takeReset word s) := by
  unfold takeReset
  split
  · exact .refl s
  · exact resetState_keepsOwnership _ s

theorem writeCommand_keepsOwnership (word : Word) (s : State) : KeepsOwnership s (writeCommand word s) := by
  unfold writeCommand
  split
  · exact .refl s
  · split
    · exact takeReset_keepsOwnership word s
    · exact takeCommand_keepsOwnership word s (effectOf_keepsOwnership _)

theorem writeWindow_keepsOwnership (address : BitVec 7) (word : Word) (s : State) :
    KeepsOwnership s (writeWindow address word s) := by
  unfold writeWindow
  split
  · exact writeCommand_keepsOwnership word s
  · split
    · unfold writeArg
      split
      · exact .of_bus rfl
      · exact .refl s
    · exact .refl s

theorem whenLive_keepsOwnership {f : State → State} (h : ∀ s, KeepsOwnership s (f s)) (s : State) :
    KeepsOwnership s (whenLive f s) := .when fun _ => h s

theorem trigEdge_keepsOwnership (level : Bool) (s : State) :
    KeepsOwnership s (whenLive (followEdge level) (setPin level s)) := by
  have pin (t : State) : KeepsOwnership t { t with trig := { t.trig with pin := level } } := .of_bus rfl
  have follow (t : State) : KeepsOwnership t (followEdge level t) :=
    KeepsOwnership.trans (t := { t with trig := { t.trig with followed := level } }) (.of_bus rfl) <|
      (KeepsOwnership.of_units (giveTriggers_outsideUnits ..)).trans <| (takeCall_keepsOwnership _).trans (finish_keepsOwnership _)
  exact (settle_keepsOwnership s).trans <| (pin _).trans (whenLive_keepsOwnership follow _)

theorem startSlot_keepsOwnership (s : State) : KeepsOwnership s (startSlot s) :=
  .when fun _ => (takeSlotEnd_keepsOwnership s).trans <| (takeListen_keepsOwnership _).trans (takeStart_keepsOwnership _)

/-- A row of bus time keeps both laws. -/
theorem passRow_keepsOwnership (before : List Level) (last : Level) {s t : State} (h : passRow before last s = .next t) :
    KeepsOwnership s t := by
  cases h
  exact whenLive_keepsOwnership (passBits_keepsOwnership _) s

/-- A reaction's row keeps both laws. -/
theorem reaction_keepsOwnership {f : State → State} (hf : ∀ s, KeepsOwnership s (f s)) {s t : State}
    (h : Host.Outcome.next (whenLive (fun s => finish (f s)) s) = (.next t : Host.Outcome State Fault Refusal)) :
    KeepsOwnership s t := by
  cases h
  exact whenLive_keepsOwnership (fun s => (hf s).trans (finish_keepsOwnership _)) s

/-- A command's row keeps both laws. -/
theorem command_keepsOwnership (n : Nat) {word : Word} {s t : State}
    (h : Host.Outcome.next (takeCommand word (effectOf n) s) = (.next t : Host.Outcome State Fault Refusal)) : KeepsOwnership s t := by
  cases h
  exact takeCommand_keepsOwnership word s (effectOf_keepsOwnership n)

theorem commandCompletion_keepsOwnership {s t : State} (h : execCommandCompletion s = .next t) : KeepsOwnership s t := by
  unfold execCommandCompletion at h
  split at h
  · cases h
    exact .of_bus rfl
  · cases h
    exact .refl s

theorem resetComplete_keepsOwnership {s t : State} (h : execResetComplete s = .next t) : KeepsOwnership s t := by
  unfold execResetComplete at h
  split at h
  · cases h
    exact .of_bus rfl
  all_goals
    cases h
    exact .refl s

/-- Every row of the table keeps both laws. -/
theorem exec_keepsOwnership (i : Instr) {s t : State} (h : exec i s = .next t) : KeepsOwnership s t := by
  cases i with
  | reset => cases h; exact takeReset_keepsOwnership _ s
  | configure => exact command_keepsOwnership 0x02 h
  | definePoint => exact command_keepsOwnership 0x03 h
  | clearCatalogue => exact command_keepsOwnership 0x04 h
  | join => exact command_keepsOwnership 0x05 h
  | leave => exact command_keepsOwnership 0x06 h
  | setCondition => exact command_keepsOwnership 0x07 h
  | feed => exact command_keepsOwnership 0x08 h
  | setPoint => exact command_keepsOwnership 0x09 h
  | getPoint => exact command_keepsOwnership 0x0A h
  | subscribe => exact command_keepsOwnership 0x0B h
  | unsubscribe => exact command_keepsOwnership 0x0C h
  | readImage => exact command_keepsOwnership 0x0D h
  | setWatch => exact command_keepsOwnership 0x0E h
  | clearWatch => exact command_keepsOwnership 0x0F h
  | readPeer => exact command_keepsOwnership 0x10 h
  | readShape => exact command_keepsOwnership 0x11 h
  | refreshPeer => exact command_keepsOwnership 0x12 h
  | readSlot => exact command_keepsOwnership 0x13 h
  | sendRequest => exact command_keepsOwnership 0x14 h
  | takeResult => exact command_keepsOwnership 0x15 h
  | cancelRequest => exact command_keepsOwnership 0x16 h
  | setSnapshot => exact command_keepsOwnership 0x17 h
  | fireSnapshot => exact command_keepsOwnership 0x18 h
  | rearmSnapshot => exact command_keepsOwnership 0x19 h
  | readSnapshot => exact command_keepsOwnership 0x1A h
  | takeEvent => exact command_keepsOwnership 0x1B h
  | readCounters => exact command_keepsOwnership 0x1C h
  | unknownCommandCode => cases h; exact writeCommand_keepsOwnership _ s
  | commandWriteRefused => cases h; exact writeCommand_keepsOwnership _ s
  | commandCompletion => exact commandCompletion_keepsOwnership h
  | resetComplete => exact resetComplete_keepsOwnership h
  | statusRead =>
    simp only [exec, execStatusRead] at h
    split at h <;> cases h
    · exact .refl s
    · exact (settle_keepsOwnership s).trans (.of_bus rfl)
  | windowWrite =>
    simp only [exec, execWindowWrite] at h
    split at h <;> cases h
    · exact .refl s
    · exact writeWindow_keepsOwnership ..
  | resetnAssert => cases h; exact resetState_keepsOwnership _ s
  | resetnRelease =>
    simp only [exec, execResetnRelease] at h
    split at h <;> cases h
    · exact resetState_keepsOwnership _ s
    · exact .refl s
  | trigEdge =>
    simp only [exec, execTrigEdge] at h
    split at h <;> cases h
    · exact .refl s
    · exact trigEdge_keepsOwnership ..
  | startBitTaken => exact passRow_keepsOwnership _ _ h
  | arrivalEnd => exact passRow_keepsOwnership _ _ h
  | arbitrationLoss => exact passRow_keepsOwnership _ _ h
  | sendPoint => exact passRow_keepsOwnership _ _ h
  | transmissionSent => exact passRow_keepsOwnership _ _ h
  | holdBegin => exact passRow_keepsOwnership _ _ h
  | holdEnd => exact passRow_keepsOwnership _ _ h
  | endOfSlot => exact passRow_keepsOwnership _ _ h
  | silenceLimit => exact reaction_keepsOwnership takeSilence_keepsOwnership h
  | roundBoundary => exact reaction_keepsOwnership takeSlotEnd_keepsOwnership h
  | startOfSlot => exact reaction_keepsOwnership startSlot_keepsOwnership h
  | listenEnd => exact reaction_keepsOwnership takeListen_keepsOwnership h
  | leavingLimit => exact reaction_keepsOwnership takeLeaving_keepsOwnership h
  | hostLost => exact reaction_keepsOwnership takeHost_keepsOwnership h
  | staleAge => exact reaction_keepsOwnership takeAges_keepsOwnership h
  | answerWaitExpiry => exact reaction_keepsOwnership takeWaits_keepsOwnership h
  | roundTrigger => exact reaction_keepsOwnership takePeriods_keepsOwnership h
  | deadlinePassed => exact reaction_keepsOwnership takeDeadline_keepsOwnership h
  | discoveryEntry => cases h; exact whenLive_keepsOwnership giveDiscovery_keepsOwnership s

/-- The controller's own time keeps both laws. -/
theorem ownTime_keepsOwnership (s : State) : KeepsOwnership s (ownTime s) := by
  unfold ownTime
  split
  · exact passMoment_keepsOwnership s
  · exact bitTime_keepsOwnership _ s

/-- A step keeps both laws: taking a command off the queue leaves line, slot unit and station control. -/
theorem step_keepsOwnership {s t : State} (h : step s = .next t) : KeepsOwnership s t := by
  unfold step at h
  split at h
  · cases h
    exact whenLive_keepsOwnership ownTime_keepsOwnership s
  · next rest _ => exact KeepsOwnership.trans (t := { s with pending := rest }) (.of_bus rfl) (exec_keepsOwnership _ h)

/-- Settles O54. -/
theorem stepsKeepOwnership : Obligations.StepsKeepOwnership :=
  ⟨fun _ _ hs h => (step_keepsOwnership h).ownership hs, fun _ _ hs h => (step_keepsOwnership h).station hs⟩

end Sys2Proof.Machine

namespace Sys2Proof.Machine

/-! ## CONFIGURE, READ_SLOT and READ_COUNTERS (R41, R44, R171) -/

/-- The ranges of CONFIGURE hold `WANT ≤ SLOTS` too, which `WANT ≤ 4` and `8 ≤ SLOTS` give (R44). -/
theorem configurationOf_eq (s : State) (c : Configuration)
    (hc : c = ⟨s.argNat 0, s.argNat 1, s.argNat 2, s.argNat 3, s.argNat 4⟩) :
    configurationOf s.host.args
      = if 1 ≤ c.station ∧ c.station ≤ 32 ∧ 8 ≤ c.slots ∧ c.slots ≤ 64 ∧ c.rate ≤ 3 ∧ c.want ≤ 4 ∧ c.timeout ≤ 255 then
          some c
        else none := by
  subst hc
  simp only [configurationOf, Config.stations]
  exact if_congr (by simp only [State.argNat]; omega) rfl rfl

/-- Settles O9. -/
theorem configureReplacesTheBlock : Obligations.ConfigureReplacesTheBlock := by
  intro s top operand hready c good w
  have row : exec (.configure top operand) s = .next (takeCommand w configureEffect s) := rfl
  have hranges := configurationOf_eq s c rfl
  refine ⟨fun hstate => gives_taken_same row hready ?_, fun hoff hbad => gives_taken_same row hready ?_, fun hoff hgood => ?_⟩
  · rw [configureEffect, if_pos hstate]
    rfl
  · rw [configureEffect, if_neg (not_not_intro hoff), hranges, if_neg hbad]
    rfl
  · have taken : configureEffect s.host.args s
        = Reply.only .ok { s with
            ctl := { s.ctl with config := c }
            slot := { s.slot with map := List.replicate c.slots SlotRecord.reset } } := by
      rw [configureEffect, if_neg (not_not_intro hoff), hranges, if_pos hgood]
      rfl
    exact gives_taken row hready taken rfl

theorem flagWord (b : Bool) : BitVec.ofNat 32 (bit b) = if b then 1 else 0 := by cases b <;> rfl

/-- Settles O17. -/
theorem readSlotAndReadCounters : Obligations.ReadSlotAndReadCounters := by
  refine ⟨fun s top operand hready => ?_, fun s top operand hready => gives_taken_same rfl hready rfl⟩
  intro w r flags own
  have row : exec (.readSlot top operand) s = .next (takeCommand w readSlotEffect s) := rfl
  have read (hk : s.argNat 0 < s.ctl.config.slots) (st : SlotState) (hst : r.state = st) :
      Gives (.readSlot top operand) s (s.taken w .ok (st.words s.ctl.config.station ++ flags) s) := by
    refine gives_taken_same row hready ?_
    refine (if_neg (Nat.not_le.mpr hk)).trans ?_
    rw [slotWords, flagWord, flagWord, flagWord, ← hst]
    rfl
  exact ⟨fun hk => gives_taken_same row hready (if_pos hk), fun hk =>
    ⟨read hk .free, fun o n => read hk (.heard o n), fun n => read hk (.claiming n), fun n => read hk (.owned n)⟩⟩

end Sys2Proof.Machine

namespace Sys2Proof.Machine

/-! ## LEAVE (R50) -/

/-- What entering OFF does depends neither on the parts of station control that OFF clears nor on what else is due. -/
theorem State.entersOff.of_ctl_due {s t : State} {es : List EventRecord} {a : StationControl} {d : Due} {r : List EventRecord}
    (h : s.entersOff t es) (ha : a.entered = s.ctl.entered) (hd : d.periods = s.due.periods) :
    ({ s with ctl := a, due := d, raised := r } : State).entersOff t es := by
  obtain ⟨hctl, hslot, hpub, hpeers, hentries, hentry, hreq, htag, hlate, hline, htrig, hdue, hrest, hends⟩ := h
  refine ⟨hctl.trans ha.symm, hslot, hpub, hpeers, hentries, hentry, hreq, htag, hlate, hline, htrig, hdue, hrest, ?_⟩
  exact fun hcalled hperiods => hends hcalled (hd ▸ hperiods)

/-- A STATION event more among those of entering OFF. -/
theorem State.entersOff.cons_station {s t : State} {es : List EventRecord} (h : s.entersOff t es) {e : EventRecord}
    (he : e.kind = .station) : s.entersOff t (e :: es) := by
  obtain ⟨hctl, hslot, hpub, hpeers, hentries, hentry, hreq, htag, hlate, hline, htrig, hdue, hrest, hends⟩ := h
  have other {k : EventKind} (hk : k ≠ .station) : ofKind k (e :: es) = ofKind k es :=
    List.filter_cons_of_neg (by rw [he, beq_iff_eq]; exact hk.symm)
  refine ⟨hctl, hslot, hpub, hpeers, hentries, ?_, ?_, htag, hlate, hline, htrig, hdue, hrest, fun hcalled hperiods hquiet u hu => ?_⟩
  · rw [other (by decide)]
    exact hentry
  · rw [other (by decide)]
    exact hreq
  · obtain ⟨hcollecting, hidle⟩ := hends hcalled hperiods hquiet u hu
    exact ⟨fun hc hp hn => (hcollecting hc hp hn).imp (And.imp_right (List.mem_cons_of_mem _))
      (And.imp_right (List.mem_cons_of_mem _)), hidle⟩

/-- The events of entering OFF enter the queue as the step ends, those of STATION, all passages of the state, in their order. -/
theorem State.entersOff.ends {s t : State} {es : List EventRecord} (h : s.entersOff t es) (hraised : t.raised = es)
    (hhost : t.host = s.host) (hcode : ∀ e ∈ ofKind .station es, e.code = 1) :
    s.takesEvents (Machine.finish t) fun es' => s.entersOff (Machine.finish t) es' ∧ ofKind .station es' = ofKind .station es := by
  have hblock : ∀ e ∈ es, e.kind = .station → e.block = 2 := by
    intro e he hk
    have hone : e.code = 1 := hcode e (List.mem_filter.mpr ⟨he, by simp [hk]⟩)
    simp [EventRecord.block, hk, hone]
  refine ⟨interleave es.length t.order.eventPicks es, ?_, h.finish _, interleave_stationEvents _ _ hblock⟩
  rw [finish_host, hraised, hhost]

/-- The state LEAVE leaves in MEMBER and in CLAIMING, before the count of OWNED records is followed (R50). -/
def State.leaves (s : State) : State :=
  { s with
    ctl := { s.ctl with state := .leaving, leaving := 0, cond := { s.ctl.cond with leaving := true } }
    slot := { s.slot with map := s.slot.map.map freeClaim }
    raised := s.raised ++ [⟨.station, 1, s.ctl.config.station, 5, 5, s.slot.round⟩] }

theorem leaves_ownedCount (s : State) : s.leaves.ownedCount = s.ownedCount := ownedCount_freeClaims s.slot.map

theorem enterLeaving_eq (s : State) : enterLeaving s = if s.ownedCount = 0 then enterOff 6 s.leaves else s.leaves := by
  rw [← leaves_ownedCount]
  rfl

/-- With no record OWNED, LEAVE in CLAIMING takes the station to OFF through LEAVING, with an event for each passage (R50). -/
theorem enterLeaving_entersOff {s : State} (hnone : s.ownedCount = 0) (hraised : s.raised = []) :
    ∃ es, (enterLeaving s).raised = es ∧ s.entersOff (enterLeaving s) es ∧ (enterLeaving s).host = s.host
      ∧ ofKind .station es
        = [⟨.station, 1, s.ctl.config.station, 5, 5, s.slot.round⟩, ⟨.station, 1, s.ctl.config.station, 6, 0, s.slot.round⟩] := by
  rw [enterLeaving_eq, if_pos hnone]
  obtain ⟨es, hes, henters, hstation⟩ := enterOff_entersOff 6 s.leaves
  have hcleared := henters.of_slot_pub (a := s.slot) (b := s.pub) rfl (by simp [State.leaves, Function.comp_def]) rfl
  have hbefore : s.entersOff (enterOff 6 s.leaves) es := hcleared.of_ctl_due (a := s.ctl) (d := s.due) (r := s.raised) rfl rfl
  refine ⟨_, hes.trans ?_, hbefore.cons_station (e := ⟨.station, 1, s.ctl.config.station, 5, 5, s.slot.round⟩) rfl,
    enterOff_host .., ?_⟩
  · rw [State.leaves, hraised]
    rfl
  · rw [ofKind, List.filter_cons_of_pos (by rfl)]
    exact congrArg _ hstation

/-- A command whose effect enters OFF: the events of entering OFF, in some order, and the result. -/
theorem leads_off {c : Instr} {word : Word} {effect : List Word → State → Reply} {s u : State} {es : List EventRecord}
    (hc : exec c s = .next (takeCommand word effect s)) (hr : s.ready) (he : effect s.host.args s = Reply.only .ok (finish u))
    (henters : s.entersOff u es) (hraised : u.raised = es) (hhost : u.host = s.host) (hclaims : u.claimingCount = 0)
    (hcode : ∀ e ∈ ofKind .station es, e.code = 1) :
    Leads c s fun t => t.ctl.state = .off ∧ t.claimingCount = 0
      ∧ ∃ es', t.host = (s.taken word .ok [] { s with host := es'.foldl enterEvent s.host }).host
          ∧ s.entersOff t es' ∧ ofKind .station es' = ofKind .station es := by
  obtain ⟨es', hqueue, hoff, hstation⟩ := henters.ends hraised hhost hcode
  have htaken := (takeCommand_of_ready word effect s hr).trans (congrArg (startCommand word · _) he)
  refine ⟨_, hc.trans (congrArg _ htaken), ?_, ?_, es', ?_, ?_, hstation⟩
  · exact congrArg (·.state) hoff.1
  · show (finish u).claimingCount = 0
    rw [finish_frame]
    exact hclaims
  · show ({ (finish u).host with result := _, running := _ } : HostLink) = _
    rw [hqueue]
    rfl
  · exact hoff

/-- Settles O11. -/
theorem leaveLeavesTheBus : Obligations.LeaveLeavesTheBus := by
  intro s top operand hready hsettled w
  have row : exec (.leave top operand) s = .next (takeCommand w leaveEffect s) := rfl
  refine ⟨fun h => gives_taken_same row hready (by simp [leaveEffect, h, Reply.only]),
    fun h => gives_taken_same row hready (by simp [leaveEffect, h, Reply.only]), fun hmember hpos => ?_, fun events h => ?_⟩
  · have effect : leaveEffect s.host.args s = Reply.only .ok (finish s.leaves) := by
      simp [leaveEffect, hmember, enterLeaving_eq, hpos.ne']
    refine gives_taken row hready effect ((finish_visible_one (by rw [State.leaves, hsettled]; rfl)).trans ?_)
    rw [← hsettled]
    rfl
  · rcases h with ⟨hstate, rfl⟩ | ⟨hclaiming, hnone, rfl⟩
    · obtain ⟨es, hes, henters, hstation⟩ := enterOff_entersOff 5 s
      have effect : leaveEffect s.host.args s = Reply.only .ok (finish (enterOff 5 s)) := by
        rcases hstate with h | h <;> simp [leaveEffect, h]
      rw [hsettled, List.nil_append] at hes
      have h := leads_off row hready effect henters hes (enterOff_host ..) (enterOff_claiming ..) (by rw [hstation]; simp)
      rwa [hstation] at h
    · obtain ⟨es, hes, henters, hhost, hstation⟩ := enterLeaving_entersOff hnone hsettled
      have effect : leaveEffect s.host.args s = Reply.only .ok (finish (enterLeaving s)) := by simp [leaveEffect, hclaiming]
      have hclaims : (enterLeaving s).claimingCount = 0 := by
        rw [enterLeaving_eq, if_pos hnone, enterOff_claiming]
      have h := leads_off row hready effect henters hes hhost hclaims (by rw [hstation]; simp)
      rwa [hstation] at h

end Sys2Proof.Machine

namespace Sys2Proof.Machine

/-! ## The reactions of the station state to a boundary (R47, R51, R55) -/

/-- A reaction's row, in a step that raises no event. -/
theorem gives_reaction {c : Instr} {f : State → State} {s t : State} (hlive : s.live)
    (hc : exec c s = .next (whenLive (fun s => finish (f s)) s)) (hf : f s = t) (ht : t.settled) : Gives c s t := by
  subst hf
  exact ⟨_, hc.trans (congrArg _ (whenLive_of_live _ _ hlive)), finish_visible _ ht⟩

/-- A reaction's row, in a step that raises one event. -/
theorem gives_reaction_one {c : Instr} {f : State → State} {s t : State} {e : EventRecord} (hlive : s.live)
    (hc : exec c s = .next (whenLive (fun s => finish (f s)) s)) (hraised : (f s).raised = [e])
    (ht : { f s with host := enterEvent (f s).host e, raised := [] } = t) : Gives c s t := by
  subst ht
  exact ⟨_, hc.trans (congrArg _ (whenLive_of_live _ _ hlive)), finish_visible_one hraised⟩

theorem leads_reaction {c : Instr} {f : State → State} {s : State} {p : State → Prop} (hlive : s.live)
    (hc : exec c s = .next (whenLive (fun s => finish (f s)) s)) (h : p (finish (f s))) : Leads c s p :=
  ⟨_, hc.trans (congrArg _ (whenLive_of_live _ _ hlive)), h⟩

/-! ### The listening count -/

/-- The second boundary in LISTENING: CLAIMING, before the search (R47). -/
def State.claims (s : State) : State :=
  { s with
    due := { s.due with listen := false }
    ctl := { s.ctl with listening := s.ctl.listening + 1, state := .claiming }
    raised := s.raised ++ [⟨.station, 1, s.ctl.config.station, 2, 2, s.slot.round⟩] }

theorem takeListen_of_notDue {s : State} (h : s.due.listen = false) : takeListen s = s := by
  simp [takeListen, h]

theorem takeListen_of_notListening {s : State} (h : s.due.listen = true) (hs : s.ctl.state ≠ .listening) :
    takeListen s = { s with due := { s.due with listen := false } } := by
  simp [takeListen, h, hs, State.modDue]

theorem takeListen_first {s : State} (h : s.due.listen = true) (hs : s.ctl.state = .listening) (hn : s.ctl.listening = 0) :
    takeListen s
      = { s with due := { s.due with listen := false }, ctl := { s.ctl with listening := s.ctl.listening + 1 } } := by
  simp [takeListen, h, hs, hn, State.modDue, State.modCtl, Config.listenRounds]

theorem takeListen_second {s : State} (h : s.due.listen = true) (hs : s.ctl.state = .listening) (hn : 1 ≤ s.ctl.listening) :
    takeListen s = candidateSearch s.claims := by
  have hcount : Config.listenRounds ≤ s.ctl.listening + 1 := Nat.succ_le_succ hn
  simp [takeListen, h, hs, hcount, State.modDue, State.modCtl]
  rfl

/-- The search of the boundary at which LISTENING ends is made if there is no hold and a record is wanting. -/
theorem searches_claims (s : State) :
    ((s.claims.ctl.state = .claiming ∨ s.claims.ctl.state = .member) ∧ s.claims.line.hold = false
        ∧ s.claims.ownedCount + s.claims.claimingCount < s.claims.ctl.config.want)
      ↔ s.line.hold = false ∧ s.ownedCount + s.claimingCount < s.ctl.config.want :=
  and_iff_right (.inl rfl)

/-- The end of LISTENING, where the search raises no event. -/
theorem gives_claiming {s : State} (hlive : s.live) (hsettled : s.settled) {slot : SlotUnit} (hround : slot.round = s.slot.round)
    (hf : takeListen s = { s.claims with slot := slot }) :
    Gives .listenEnd s
      ({ s with
          due := { s.due with listen := false }
          ctl := { s.ctl with listening := s.ctl.listening + 1, state := .claiming }
          slot := slot }.withEvent .station 1 s.ctl.config.station 2 2) := by
  refine gives_reaction_one (f := takeListen) hlive rfl (by rw [hf, State.claims, hsettled]; rfl) ?_
  rw [hf, State.withEvent, hround, State.claims, ← hsettled]

/-- The end of LISTENING, where the search finds no record and says so for the first time. -/
theorem starves_claims {s : State} (hsettled : s.settled)
    (hsearch : s.line.hold = false ∧ s.ownedCount + s.claimingCount < s.ctl.config.want)
    (hnone : ∀ k, k < s.ctl.config.slots → ¬((s.slotAt k).state = .free ∧ (s.slotAt k).activityLast = false))
    (hstarved : s.slot.starved = false) :
    candidateSearch s.claims
      = { s.claims with
          slot := { s.slot with starved := true }
          raised :=
            [⟨.station, 1, s.ctl.config.station, 2, 2, s.slot.round⟩,
              ⟨.slot, 4, s.ctl.config.preferredSlot, s.ownedCount + s.claimingCount, BitVec.ofNat 32 s.ctl.config.want,
                s.slot.round⟩] } := by
  rw [candidateSearch_of_none ((searches_claims s).mpr hsearch) (candidate_eq_none (s := s.claims) hnone)]
  refine (if_neg (by rw [State.claims, hstarved]; decide)).trans ?_
  simp only [raise, State.modSlot, State.claims, show s.raised = [] from hsettled]
  rfl

/-- LISTENING ends, and STARVED is reported in the same step, in either order (R28, R47). -/
theorem listenEnd_starves {s : State} (hlive : s.live) (hsettled : s.settled) (hdue : s.due.listen = true)
    (hstate : s.ctl.state = .listening) (hcount : 1 ≤ s.ctl.listening)
    (hsearch : s.line.hold = false ∧ s.ownedCount + s.claimingCount < s.ctl.config.want)
    (hnone : ∀ k, k < s.ctl.config.slots → ¬((s.slotAt k).state = .free ∧ (s.slotAt k).activityLast = false))
    (hstarved : s.slot.starved = false) (hroom : s.host.events.length ≤ 30) :
    Leads .listenEnd s fun t =>
      let entered : EventRecord := ⟨.station, 1, s.ctl.config.station, 2, 2, s.slot.round⟩
      let starved : EventRecord :=
        ⟨.slot, 4, ((s.ctl.config.station - 1) % s.ctl.config.slots + 0) % s.ctl.config.slots, s.ownedCount + s.claimingCount,
          BitVec.ofNat 32 s.ctl.config.want, s.slot.round⟩
      t.ctl = s.claims.ctl ∧ t.slot = { s.slot with starved := true } ∧ t.due = s.claims.due
        ∧ t.line = s.line ∧ t.peers = s.peers ∧ t.image = s.image ∧ t.req = s.req
        ∧ (t.host.events = s.host.events ++ [entered, starved] ∨ t.host.events = s.host.events ++ [starved, entered]) := by
  have hpref : ((s.ctl.config.station - 1) % s.ctl.config.slots + 0) % s.ctl.config.slots = s.ctl.config.preferredSlot :=
    Nat.mod_mod ..
  refine leads_reaction (f := takeListen) hlive rfl ?_
  rw [takeListen_second hdue hstate hcount, starves_claims hsettled hsearch hnone hstarved, hpref]
  set u : State := { s.claims with
    slot := { s.slot with starved := true }
    raised := [⟨.station, 1, s.ctl.config.station, 2, 2, s.slot.round⟩, ⟨.slot, 4, s.ctl.config.preferredSlot,
      s.ownedCount + s.claimingCount, BitVec.ofNat 32 s.ctl.config.want, s.slot.round⟩] } with hu
  have hevents := finish_two (s := u) rfl hroom
  rw [finish_frame u]
  exact ⟨rfl, rfl, rfl, rfl, rfl, rfl, rfl, hevents⟩

/-! ### The leaving count -/

theorem takeLeaving_of_notDue {s : State} (h : s.due.leaving = false) : takeLeaving s = s := by
  simp [takeLeaving, h]

theorem takeLeaving_of_notLeaving {s : State} (h : s.due.leaving = true) (hs : s.ctl.state ≠ .leaving) :
    takeLeaving s = { s with due := { s.due with leaving := false } } := by
  simp [takeLeaving, h, hs, State.modDue]

theorem takeLeaving_first {s : State} (h : s.due.leaving = true) (hs : s.ctl.state = .leaving) (hn : s.ctl.leaving = 0) :
    takeLeaving s = { s with due := { s.due with leaving := false }, ctl := { s.ctl with leaving := 1 } } := by
  simp [takeLeaving, h, hs, hn, State.modDue, State.modCtl, Config.leavingRounds]

theorem takeLeaving_second {s : State} (h : s.due.leaving = true) (hs : s.ctl.state = .leaving) (hn : 1 ≤ s.ctl.leaving) :
    takeLeaving s
      = enterOff 7 { s with due := { s.due with leaving := false }, ctl := { s.ctl with leaving := s.ctl.leaving + 1 } } := by
  have hcount : Config.leavingRounds ≤ s.ctl.leaving + 1 := Nat.succ_le_succ hn
  simp [takeLeaving, h, hs, hcount, State.modDue, State.modCtl]

theorem enterOff_owned (cause : Nat) (s : State) : (enterOff cause s).ownedCount = 0 := by
  rw [State.ownedCount, enterOff_slot]
  simp [slotOff, List.countP_eq_zero, SlotRecord.reset, SlotState.isOwned]

/-- The second boundary in LEAVING takes the station to OFF (R51). -/
theorem leavingLimit_entersOff {s : State} (hlive : s.live) (hsettled : s.settled) (hdue : s.due.leaving = true)
    (hstate : s.ctl.state = .leaving) (hcount : 1 ≤ s.ctl.leaving) :
    Leads .leavingLimit s fun t =>
      t.ctl.state = .off ∧ t.ctl.leaving = 0 ∧ t.ctl.cond.leaving = false ∧ t.ownedCount = 0 ∧ t.pub.answers = []
        ∧ s.takesEvents t fun es =>
            s.entersOff t es ∧ ofKind .station es = [⟨.station, 1, s.ctl.config.station, 7, 0, s.slot.round⟩] := by
  refine leads_reaction (f := takeLeaving) hlive rfl ?_
  rw [takeLeaving_second hdue hstate hcount]
  set v : State := { s with due := { s.due with leaving := false }, ctl := { s.ctl with leaving := s.ctl.leaving + 1 } } with hv
  obtain ⟨es, hes, henters, hstation⟩ := enterOff_entersOff 7 v
  rw [show v.raised = [] from hsettled, List.nil_append] at hes
  have hbefore : s.entersOff (enterOff 7 v) es := henters.of_ctl_due (a := s.ctl) (d := s.due) (r := s.raised) rfl rfl
  obtain ⟨es', hqueue, hoff, hsame⟩ := hbefore.ends hes (enterOff_host ..) (by rw [hstation]; simp)
  have hctl := hoff.1
  refine ⟨congrArg (·.state) hctl, congrArg (·.leaving) hctl, congrArg (·.cond.leaving) hctl, ?_,
    congrArg (·.answers) hoff.2.2.1, es', hqueue, hoff, hsame.trans hstation⟩
  show (finish (enterOff 7 v)).ownedCount = 0
  rw [finish_frame]
  exact enterOff_owned 7 v

/-! ### The host-loss timer -/

theorem takeHost_of_notDue {s : State} (h : s.due.host = false) : takeHost s = s := by
  simp [takeHost, h]

theorem takeHost_at_rest {s : State} (h : s.due.host = true)
    (hrest : s.ctl.state = .off ∨ s.ctl.config.timeout = 0 ∨ s.ctl.cond.hostLost = true) :
    takeHost s = { s with due := { s.due with host := false } } := by
  simp only [takeHost, h, if_true]
  exact if_pos hrest

theorem takeHost_counts {s : State} (h : s.due.host = true)
    (hruns : ¬(s.ctl.state = .off ∨ s.ctl.config.timeout = 0 ∨ s.ctl.cond.hostLost = true))
    (hcount : s.ctl.hostLoss + 1 ≠ s.ctl.config.timeout) :
    takeHost s = { s with due := { s.due with host := false }, ctl := { s.ctl with hostLoss := s.ctl.hostLoss + 1 } } := by
  simp only [takeHost, h, if_true]
  exact (if_neg hruns).trans (if_neg hcount)

theorem takeHost_expires {s : State} (h : s.due.host = true)
    (hruns : ¬(s.ctl.state = .off ∨ s.ctl.config.timeout = 0 ∨ s.ctl.cond.hostLost = true))
    (hcount : s.ctl.hostLoss + 1 = s.ctl.config.timeout) :
    takeHost s
      = { s with
          due := { s.due with host := false }
          ctl := { s.ctl with hostLoss := s.ctl.hostLoss + 1, cond := { s.ctl.cond with hostLost := true } }
          raised :=
            s.raised ++ [⟨.station, 2, s.ctl.config.station, 0, BitVec.ofNat 32 s.ctl.config.timeout, s.slot.round⟩] } := by
  simp only [takeHost, h, if_true]
  exact (if_neg hruns).trans (if_pos hcount)

/-- Settles O48. -/
theorem stationFollowsTheBoundary : Obligations.StationFollowsTheBoundary := by
  intro s hlive hsettled c listened left hosted
  have searches (h : s.line.hold = true ∨ c.want ≤ s.ownedCount + s.claimingCount) :
      ¬(s.line.hold = false ∧ s.ownedCount + s.claimingCount < c.want) := by
    rintro ⟨hhold, hwant⟩
    rcases h with h | h
    · simp [hhold] at h
    · omega
  have runs (hstate : s.ctl.state ≠ .off) (htimeout : c.timeout ≠ 0) (hlost : s.ctl.cond.hostLost = false) :
      ¬(s.ctl.state = .off ∨ c.timeout = 0 ∨ s.ctl.cond.hostLost = true) :=
    not_or.mpr ⟨hstate, not_or.mpr ⟨htimeout, Bool.eq_false_iff.mp hlost⟩⟩
  refine ⟨⟨fun hdue => ?_, fun hdue hstate => ?_, fun hdue hstate hcount => ?_, fun hdue hstate hcount =>
      ⟨?_, fun h => ?_, fun hhold hwant => ⟨fun j hj hopen hfirst => ?_, fun hnone => ⟨fun hst => ?_, fun hst hroom => ?_⟩⟩⟩⟩,
    ⟨fun hdue => ?_, fun hdue hstate => ?_, fun hdue hstate hcount => ?_, fun hdue hstate hcount => ?_⟩,
    fun hdue => ?_, fun hdue hrest => ?_, fun hdue hstate htimeout hlost => ⟨fun hcount => ?_, fun hcount => ?_⟩⟩
  · exact gives_reaction hlive rfl (takeListen_of_notDue hdue) hsettled
  · exact gives_reaction hlive rfl (takeListen_of_notListening hdue hstate) hsettled
  · exact gives_reaction hlive rfl (takeListen_first hdue hstate hcount) hsettled
  · refine leads_reaction (f := takeListen) hlive rfl ?_
    rw [takeListen_second hdue hstate hcount, finish_frame]
    exact (congrArg Prod.fst (candidateSearch_clock s.claims) :)
  · refine gives_claiming hlive hsettled (slot := s.slot) rfl ?_
    rw [takeListen_second hdue hstate hcount]
    exact candidateSearch_of_not (mt (searches_claims s).mp (searches h))
  · refine gives_claiming hlive hsettled rfl ?_
    rw [takeListen_second hdue hstate hcount]
    exact candidateSearch_of_some ((searches_claims s).mpr ⟨hhold, hwant⟩) (candidate_eq_some (s := s.claims) hj hopen hfirst)
  · refine gives_claiming hlive hsettled (slot := s.slot) rfl ?_
    rw [takeListen_second hdue hstate hcount,
      candidateSearch_of_none ((searches_claims s).mpr ⟨hhold, hwant⟩) (candidate_eq_none (s := s.claims) hnone)]
    exact if_pos hst
  · exact listenEnd_starves hlive hsettled hdue hstate hcount ⟨hhold, hwant⟩ hnone hst hroom
  · exact gives_reaction hlive rfl (takeLeaving_of_notDue hdue) hsettled
  · exact gives_reaction hlive rfl (takeLeaving_of_notLeaving hdue hstate) hsettled
  · exact gives_reaction hlive rfl (takeLeaving_first hdue hstate hcount) hsettled
  · exact leavingLimit_entersOff hlive hsettled hdue hstate hcount
  · exact gives_reaction hlive rfl (takeHost_of_notDue hdue) hsettled
  · exact gives_reaction hlive rfl (takeHost_at_rest hdue hrest) hsettled
  · exact gives_reaction hlive rfl (takeHost_counts hdue (runs hstate htimeout hlost) hcount) hsettled
  · have hexpires := takeHost_expires hdue (runs hstate htimeout hlost) hcount
    refine gives_reaction_one (f := takeHost) hlive rfl (by rw [hexpires, hsettled]; rfl) ?_
    rw [hexpires, State.withEvent, hcount, ← hsettled]

end Sys2Proof.Machine

namespace Sys2Proof.Machine

/-! ## The reports of frames that were LOST or ABANDONED (R31 to R36) -/

theorem knownWinner_of_unknown {station slot : Nat} {cls : ArrivalClass} {frame : Option Frame}
    (h : cls ≠ .good ∨ ∀ f, frame = some f → f.slot ≠ slot ∨ f.source = station) :
    knownWinner station slot cls frame = none := by
  unfold knownWinner
  split
  · next f =>
    refine if_neg fun ⟨hslot, hsource⟩ => ?_
    exact ((h.resolve_left (not_not_intro rfl)) f rfl).elim (absurd hslot) hsource
  · rfl

theorem knownWinner_of_known {station slot n : Nat} {cls : ArrivalClass} {frame : Option Frame}
    (h : cls = .good ∧ ∃ f, frame = some f ∧ f.slot = slot ∧ f.source = n ∧ n ≠ station) :
    knownWinner station slot cls frame = some n := by
  obtain ⟨rfl, f, rfl, rfl, rfl, hne⟩ := h
  exact if_pos ⟨rfl, hne⟩

/-- A station of which a slot is HEARD already gains one more, and nothing else comes of it (R80). -/
theorem gainSlot_of_heard {s : State} {n : Nat} (hn : 1 ≤ n) (hown : n ≠ s.ctl.config.station) (hheard : 1 ≤ (s.peer n).heardSlots) :
    gainSlot n s = { s with peers := s.peers.modify (n - 1) fun p => { p with heardSlots := p.heardSlots + 1 } } := by
  have hpeer : ¬(n = 0 ∨ n = s.ctl.config.station) := not_or.mpr ⟨Nat.ne_of_gt hn, hown⟩
  have hlen : n ≤ s.peers.length := by
    by_contra h
    rw [State.peer, List.getD_eq_default _ _ (by omega)] at hheard
    simp [PeerRecord.reset] at hheard
  have hcount : ((s.modPeer n fun p => { p with heardSlots := p.heardSlots + 1 }).peer n).heardSlots ≠ 1 := by
    rw [peer_modPeer (Nat.ne_of_gt hn) hown hlen]
    show (s.peer n).heardSlots + 1 ≠ 1
    omega
  refine (if_neg hpeer).trans ((if_neg hcount).trans ?_)
  exact if_neg hpeer

/-- A record given up to a winner that holds a slot already (R31, R33, R80). -/
def wonBy (x : Transmission) (n : Nat) (s : State) : State :=
  { s with
    slot := { s.slot with map := s.slot.map.modify x.slot fun r => { r with state := .heard n 0, ownerHeard := true } }
    peers := s.peers.modify (n - 1) fun p => { p with heardSlots := p.heardSlots + 1 } }

theorem giveUpSlot_heard {s : State} {x : Transmission} {n : Nat} (howner : (s.slotAt x.slot).state.owner? = none)
    (hx : x.slot < s.slot.map.length) (hown : n ≠ s.ctl.config.station) (hjoined : 1 ≤ n ∧ 1 ≤ (s.peer n).heardSlots) :
    giveUpSlot x (some n) s = wonBy x n s := by
  rw [giveUpSlot, becomeHeard_of_noOwner howner hx]
  exact gainSlot_of_heard (s := s.modSlotAt x.slot _) hjoined.1 hown hjoined.2

/-! ### The report to the slot unit, case by case -/

section
variable {s : State} {x : Transmission} {c : Nat} {cls : ArrivalClass} {frame : Option Frame}

theorem reportToSlots_lostClaim (hkind : x.kind = .claimFrame) (hst : (s.slotAt x.slot).state = .claiming c) {w : Option Nat}
    (hw : knownWinner s.ctl.config.station x.slot cls frame = w) :
    reportToSlots x (.lost cls frame) s = raise .slot 3 x.slot (w.getD 0) 1 (giveUpSlot x w s) := by
  subst hw
  simp only [reportToSlots, hkind, hst]
  rfl

theorem reportToSlots_firstLoss (hkind : x.kind = .slotFrame) (hst : (s.slotAt x.slot).state = .owned 0) (hstate : s.ctl.state = .member) :
    reportToSlots x (.lost cls frame) s = s.modSlotAt x.slot fun r => { r with state := .owned 1 } := by
  simp only [reportToSlots, hkind, hst, hstate, reportOwned_lost, if_true]

/-- The slot given up at a second loss, with its event and with the number of OWNED records left (R33). -/
theorem slotLost_giveUpSlot (hst : (s.slotAt x.slot).state = .owned c) (w : Option Nat) :
    slotLost x w (giveUpSlot x w s) = raise .slot 2 x.slot (w.getD 0) (BitVec.ofNat 32 (s.ownedCount - 1)) (giveUpSlot x w s) := by
  rw [slotLost, giveUpSlot_ownedCount hst]

/-- A second loss gives the slot up; station control follows the OWNED records left (R33, R48). -/
theorem reportToSlots_secondLoss (hkind : x.kind = .slotFrame) (hst : (s.slotAt x.slot).state = .owned c) (hc : c ≠ 0)
    (hstate : s.ctl.state = .member) {w : Option Nat} (hw : knownWinner s.ctl.config.station x.slot cls frame = w) :
    reportToSlots x (.lost cls frame) s
      = if s.ownedCount - 1 = 0 then passStation .claiming 4 (slotLost x w (giveUpSlot x w s)) else slotLost x w (giveUpSlot x w s) := by
  subst hw
  have hctl (w : Option Nat) : (giveUpSlot x w s).ctl = s.ctl := (congrArg State.ctl (giveUpSlot_outsideMap x w s) :)
  simp only [reportToSlots, hkind, hst, hstate, reportOwned_lost, if_neg hc]
  rw [followOwned_member (by rw [slotLost, raise_ctl, hctl, hstate]), ← giveUpSlot_ownedCount hst]
  rfl

/-- A LOST report outside LEAVING raises events and changes the slot map, what follows its owners, and the station state (R35). -/
theorem reportToSlots_reported (h : s.ctl.state ≠ .leaving) : Reported s (reportToSlots x (.lost cls frame) s) := by
  have given {st : SlotState} (hst : (s.slotAt x.slot).state = st) (howner : st.owner? = none) (hfree : st ≠ .free) (w : Option Nat) :
      Reported s (giveUpSlot x w s) :=
    giveUpSlot_reported (by rw [hst, howner]) (lt_of_slotAt_ne (by rw [hst]; exact hfree)) w
  unfold reportToSlots
  split
  · next hst => exact (given hst rfl (by simp) _).trans (raise_reported ⟨by simp, by simp⟩ ..)
  · next c _ hst =>
    split
    case h_1 hs => exact absurd hs h
    case h_2 hs =>
      rw [reportOwned_lost]
      split
      · exact modSlotAt_reported ..
      · set w := knownWinner s.ctl.config.station x.slot cls frame
        have hctl : (slotLost x w (giveUpSlot x w s)).ctl = s.ctl := (congrArg State.ctl (giveUpSlot_outsideMap x w s) :)
        have hon : (followOwned (slotLost x w (giveUpSlot x w s))).ctl.state ≠ .off := by
          rw [followOwned_member (by rw [hctl, hs])]
          split
          · nofun
          · rw [hctl, hs]
            nofun
        exact ((given hst rfl (by simp) w).trans (raise_reported ⟨by simp, by simp⟩ ..)).trans (followOwned_reported hon)
    all_goals exact .refl s
  · exact .refl s

/-- No report reaches a record that is not in the state its frame was assembled for (R35). -/
theorem reportToSlots_past {e : TxEnd} (hclaim : x.kind = .claimFrame → (s.slotAt x.slot).state.isClaiming = false)
    (hslot : x.kind = .slotFrame → (s.slotAt x.slot).state.isOwned = false) : reportToSlots x e s = s := by
  unfold reportToSlots
  split
  · next hk hst =>
    have h := hclaim hk
    rw [hst] at h
    cases h
  · next hk hst =>
    have h := hslot hk
    rw [hst] at h
    cases h
  · rfl

/-- An ABANDONED claim changes nothing (R32). -/
theorem reportToSlots_abandonedClaim (hkind : x.kind = .claimFrame) : reportToSlots x .abandoned s = s := by
  unfold reportToSlots
  split
  · rfl
  · next hk _ => exact absurd (hk.symm.trans hkind) (by simp)
  · rfl

/-- In LEAVING the end of the last OWNED record's frame takes the station to OFF, however the frame ended (R36, R51). -/
theorem reportToSlots_leaves {e : TxEnd} (hkind : x.kind = .slotFrame) (hst : (s.slotAt x.slot).state = .owned c)
    (hstate : s.ctl.state = .leaving) (hcount : s.ownedCount = 1) :
    ∃ es, (reportToSlots x e s).raised = s.raised ++ es ∧ s.entersOff (reportToSlots x e s) es
      ∧ ofKind .station es = [⟨.station, 1, s.ctl.config.station, 6, 0, s.slot.round⟩] := by
  rw [reportToSlots_leaving hkind hst hstate s rfl rfl, if_pos (by rw [hcount])]
  obtain ⟨es, hes, henters, hstation⟩ := enterOff_entersOff 6 (s.modSlotAt x.slot freeRecord)
  have hbefore := henters.of_slot_pub (a := s.slot) (b := s.pub) rfl (by simp) rfl
  exact ⟨es, hes, hbefore, hstation⟩

end

/-- Settles O34. -/
theorem lostFramesAreReported : Obligations.LostFramesAreReported := by
  intro s x cls frame t st unknown known freed taken event joined
  have noOwner {r : SlotState} (hst : st = r) (h : r.owner? = none) : (s.slotAt x.slot).state.owner? = none :=
    (congrArg SlotState.owner? hst).trans h
  have inMap {r : SlotState} (hst : st = r) (h : r ≠ .free) : x.slot < s.slot.map.length :=
    lt_of_slotAt_ne (fun hfree => h (hst.symm.trans hfree))
  have gone {r : SlotState} (hst : st = r) (h : r.owner? = none) : giveUpSlot x none s = freed s :=
    giveUpSlot_unknown (noOwner hst h)
  have won {r : SlotState} {n : Nat} (hst : st = r) (h : r.owner? = none) (hfree : r ≠ .free) (hn : known n) (hj : joined n) :
      giveUpSlot x (some n) s = taken n s := by
    obtain ⟨-, f, -, -, -, hne⟩ := hn
    exact giveUpSlot_heard (noOwner hst h) (inMap hst hfree) hne hj
  refine ⟨fun c hkind hst => ⟨fun hu => ?_, fun n hn hj => ?_⟩,
    fun c hkind hst hstate => ⟨fun hc => ?_, fun hc hcount => ⟨fun hu => ?_, fun n hn hj => ?_⟩,
      fun hc hcount => ⟨fun hu => ?_, fun n hn hj => ?_⟩⟩,
    fun c hkind hst hstate hcount => ?_, fun c hkind hst hstate hcount => ?_, fun hclaim hslot => reportToSlots_past hclaim hslot,
    reportEnd_of_notSent x (by simp) s, fun hstate => ?_, fun h => ?_, fun hkind howned hstate => ?_⟩
  · rw [show t = _ from reportToSlots_lostClaim hkind hst (knownWinner_of_unknown hu), gone hst rfl]
    rfl
  · rw [show t = _ from reportToSlots_lostClaim hkind hst (knownWinner_of_known hn), won hst rfl (by simp) hn hj]
    rfl
  · subst hc
    exact reportToSlots_firstLoss hkind hst hstate
  · rw [show t = _ from reportToSlots_secondLoss hkind hst hc hstate (knownWinner_of_unknown hu), if_neg (by omega),
      slotLost_giveUpSlot hst, gone hst rfl]
    rfl
  · rw [show t = _ from reportToSlots_secondLoss hkind hst hc hstate (knownWinner_of_known hn), if_neg (by omega),
      slotLost_giveUpSlot hst, won hst rfl (by simp) hn hj]
    rfl
  · rw [show t = _ from reportToSlots_secondLoss hkind hst hc hstate (knownWinner_of_unknown hu), if_pos (by omega),
      slotLost_giveUpSlot hst, gone hst rfl, hcount]
    rfl
  · rw [show t = _ from reportToSlots_secondLoss hkind hst hc hstate (knownWinner_of_known hn), if_pos (by omega),
      slotLost_giveUpSlot hst, won hst rfl (by simp) hn hj, hcount]
    rfl
  · rw [show t = _ from reportToSlots_leaving hkind hst hstate s rfl rfl, if_neg (by omega)]
    rfl
  · obtain ⟨es, hes, henters, hstation⟩ := reportToSlots_leaves (e := .lost cls frame) hkind hst hstate hcount
    exact ⟨congrArg (·.state) henters.1, es, hes, henters, hstation⟩
  · have h := reportToSlots_reported (x := x) (cls := cls) (frame := frame) hstate
    exact ⟨(congrArg State.pub h.frame :), h.req⟩
  · by_cases hleaving : s.ctl.state = .leaving
    · rw [reportEnd_of_notSent x (by simp)]
      by_cases hkind : x.kind = .claimFrame
      · exact reportToSlots_abandonedClaim hkind
      · exact reportToSlots_past (absurd · hkind) fun _ => (h.resolve_left hkind).resolve_right (not_not_intro hleaving)
    · exact reportEnd_abandoned x hleaving
  · obtain ⟨c, hst⟩ : ∃ c, st = .owned c := by
      cases hst : st <;> simp [hst, SlotState.isOwned] at howned ⊢
    rw [reportEnd_of_notSent x (by simp)]
    exact (reportToSlots_leaving hkind hst hstate s rfl rfl).trans (reportToSlots_leaving hkind hst hstate s rfl rfl).symm

end Sys2Proof.Machine

namespace Sys2Proof.Machine

/-! ## The application records of an absent target (R133, R145) -/

/-- A live application record for a target. -/
abbrev RequestRecord.goneFor (n : Nat) (r : RequestRecord) : Prop :=
  r.origin = .application ∧ r.target = n ∧ (r.state = .waiting ∨ r.state = .sent)

theorem live_iff (st : RequestState) : st.live = true ↔ st = .waiting ∨ st = .sent := by
  cases st <;> simp [RequestState.live]

theorem recordAbsent_of_none {n id : Nat} {s : State} (h : s.record? id = none) : recordAbsent n s id = s := by
  simp only [recordAbsent, h]

theorem recordAbsent_of_gone {n id : Nat} {s : State} {r : RequestRecord} (h : s.record? id = some r) (hr : r.goneFor n) :
    recordAbsent n s id = endRecord id .targetGone .nothing s := by
  obtain ⟨happ, htarget, hlive⟩ := hr
  simp only [recordAbsent, h]
  exact if_pos ⟨happ, htarget, (live_iff _).mpr hlive⟩

theorem recordAbsent_of_not {n id : Nat} {s : State} (h : ∀ r, s.record? id = some r → ¬r.goneFor n) : recordAbsent n s id = s := by
  cases hrec : s.record? id with
  | none => exact recordAbsent_of_none hrec
  | some r =>
    simp only [recordAbsent, hrec]
    exact if_neg fun ⟨happ, htarget, hlive⟩ => h r hrec ⟨happ, htarget, (live_iff _).mp hlive⟩

/-- Records that are not ended now stand as they are. -/
theorem foldl_recordAbsent_of_not {n : Nat} {s : State} {ids : List Nat}
    (h : ∀ id ∈ ids, ∀ r, s.record? id = some r → ¬r.goneFor n) : ids.foldl (recordAbsent n) s = s := by
  induction ids with
  | nil => rfl
  | cons id ids ih =>
    rw [List.foldl_cons, recordAbsent_of_not (h id (by simp)), ih fun j hj => h j (by simp [hj])]

theorem requestsAbsent_of_none {n : Nat} {s : State} (h : ∀ r ∈ s.req.list, ¬r.goneFor n) : requestsAbsent n s = s :=
  (requestsAbsent_eq n s).trans (foldl_recordAbsent_of_not fun _ _ r hr => h r (List.mem_of_find?_eq_some hr))

/-! ### The end of a record makes no record live -/

/-- From `s` to `t` records have ended: each has its number, and those that are live are as they were. -/
structure Ends (s t : State) : Prop where
  ids : t.recordIds = s.recordIds
  live : ∀ id r, t.record? id = some r → r.state.live = true → s.record? id = some r

theorem Ends.refl (s : State) : Ends s s := ⟨rfl, fun _ _ h _ => h⟩

theorem Ends.trans {s t u : State} (h : Ends s t) (g : Ends t u) : Ends s u :=
  ⟨g.ids.trans h.ids, fun id r hr hlive => h.live id r (g.live id r hr hlive) hlive⟩

theorem endState_not_live (o : RequestOutcome) : o.endState.live = false := by cases o <;> rfl

theorem closeRecord_list (id : Nat) (o : RequestOutcome) (c : Content) (s : State) :
    (closeRecord id o c s).req.list = s.req.list.map fun r => if r.id = id then r.closed o c else r := by
  unfold closeRecord
  split
  · next h =>
    rw [State.record?, List.find?_eq_none] at h
    conv_lhs => rw [← List.map_id s.req.list]
    exact List.map_congr_left fun r hr => (if_neg (by simpa using h r hr)).symm
  · dsimp only
    split <;> rfl

/-- The record of a number, after a record has been closed. -/
theorem record?_closeRecord (id j : Nat) (o : RequestOutcome) (c : Content) (s : State) :
    (closeRecord id o c s).record? j = (s.record? j).map fun r => if r.id = id then r.closed o c else r := by
  rw [State.record?, closeRecord_list, List.find?_map]
  refine congrArg (Option.map _) (congrArg (List.find? · _) (funext fun r => ?_))
  show ((if r.id = id then r.closed o c else r).id == j) = _
  split <;> rfl

theorem closeRecord_ends (id : Nat) (o : RequestOutcome) (c : Content) (s : State) : Ends s (closeRecord id o c s) where
  ids := by
    rw [State.recordIds, closeRecord_list, List.map_map]
    refine List.map_congr_left fun r _ => ?_
    show (if r.id = id then r.closed o c else r).id = r.id
    split <;> rfl
  live j r hr hlive := by
    rw [record?_closeRecord, Option.map_eq_some_iff] at hr
    obtain ⟨q, hq, rfl⟩ := hr
    by_cases hid : q.id = id
    · rw [if_pos hid] at hlive
      exact absurd ((endState_not_live o).symm.trans hlive) (by simp)
    · rwa [if_neg hid]

/-- The record closed is not live. -/
theorem closeRecord_not_live {id : Nat} {o : RequestOutcome} {c : Content} {s : State} {r : RequestRecord}
    (h : (closeRecord id o c s).record? id = some r) : r.state.live = false := by
  rw [record?_closeRecord, Option.map_eq_some_iff] at h
  obtain ⟨q, hq, rfl⟩ := h
  rw [if_pos (by simpa using List.find?_some hq)]
  exact endState_not_live o

theorem breakChain_ends (ids failed unsuccessful : List Nat) (s : State) : Ends s (breakChain ids failed unsuccessful s) := by
  induction ids generalizing failed s with
  | nil => exact .refl s
  | cons id ids ih =>
    simp only [breakChain]
    split
    · exact ih ..
    · split
      · exact (closeRecord_ends ..).trans (ih ..)
      · exact ih ..

theorem endRecord_targetGone (id : Nat) (s : State) :
    endRecord id .targetGone .nothing s
      = breakChain (closeRecord id .targetGone .nothing s).recordIds [id] [] (closeRecord id .targetGone .nothing s) := rfl

theorem endRecord_targetGone_ends (id : Nat) (s : State) : Ends s (endRecord id .targetGone .nothing s) :=
  (closeRecord_ends ..).trans (breakChain_ends ..)

theorem endRecord_targetGone_not_live {id : Nat} {s : State} {r : RequestRecord}
    (h : (endRecord id .targetGone .nothing s).record? id = some r) : r.state.live = false := by
  by_contra hlive
  rw [Bool.not_eq_false] at hlive
  have hclosed := (breakChain_ends ..).live id r (endRecord_targetGone id s ▸ h) hlive
  exact absurd (closeRecord_not_live hclosed) (by simp [hlive])

/-- The first record that ends, ends first; the others are judged in the list it leaves (R145, log 29). -/
theorem requestsAbsent_of_first {n : Nat} {s : State} {before after : List RequestRecord} {r : RequestRecord}
    (hids : (s.req.list.map (·.id)).Nodup) (hlist : s.req.list = before ++ r :: after) (hr : r.goneFor n)
    (hbefore : ∀ q ∈ before, ¬q.goneFor n) : requestsAbsent n s = requestsAbsent n (endRecord r.id .targetGone .nothing s) := by
  set t := endRecord r.id .targetGone .nothing s
  have hends : Ends s t := endRecord_targetGone_ends r.id s
  have hsplit : s.recordIds = before.map (·.id) ++ r.id :: after.map (·.id) := by rw [State.recordIds, hlist]; simp
  have hne : ∀ q ∈ before, q.id ≠ r.id := by
    rw [hlist, List.map_append, List.nodup_append] at hids
    exact fun q hq => hids.2.2 _ (List.mem_map_of_mem hq) _ (by simp)
  have hrec : s.record? r.id = some r := record?_of_split hlist hne
  have hstand : ∀ id ∈ before.map (·.id), ∀ q, s.record? id = some q → ¬q.goneFor n := by
    intro id hid q hq
    obtain ⟨p, hp, rfl⟩ := List.mem_map.mp hid
    obtain ⟨as, bs, rfl⟩ := List.append_of_mem hp
    have hp' : s.record? p.id = some p := by
      refine record?_of_split (before := as) (after := bs ++ r :: after) (by simpa using hlist) ?_
      rw [hlist, List.append_assoc, List.map_append, List.nodup_append] at hids
      exact fun q hq => hids.2.2 _ (List.mem_map_of_mem hq) _ (by simp)
    rw [Option.some.inj (hq.symm.trans hp')]
    exact hbefore p hp
  have hstand' : ∀ id ∈ before.map (·.id) ++ [r.id], ∀ q, t.record? id = some q → ¬q.goneFor n := by
    intro id hid q hq hgone
    have hlive := (live_iff _).mpr hgone.2.2
    rcases List.mem_append.mp hid with hid | hid
    · exact hstand id hid q (hends.live id q hq hlive) hgone
    · rw [List.mem_singleton.mp hid] at hq
      exact absurd (endRecord_targetGone_not_live hq) (by simp [hlive])
  calc requestsAbsent n s
      = (after.map (·.id)).foldl (recordAbsent n) t := by
        rw [requestsAbsent_eq, hsplit, List.foldl_append, foldl_recordAbsent_of_not hstand, List.foldl_cons,
          recordAbsent_of_gone hrec hr]
    _ = (before.map (·.id) ++ r.id :: after.map (·.id)).foldl (recordAbsent n) t := by
        rw [List.append_cons, List.foldl_append, foldl_recordAbsent_of_not hstand']
    _ = requestsAbsent n t := by rw [requestsAbsent_eq, hends.ids, hsplit]

/-! ### With no chains -/

/-- No chain breaks where no record has a predecessor. -/
theorem breakChain_of_unchained {s : State} (h : ∀ r ∈ s.req.list, r.predecessor = none) (ids failed unsuccessful : List Nat) :
    breakChain ids failed unsuccessful s = s := by
  induction ids with
  | nil => rfl
  | cons id ids ih =>
    simp only [breakChain]
    split
    · exact ih
    · next r hr =>
      have hnone : r.predecessor = none := h r (List.mem_of_find?_eq_some hr)
      rw [if_neg (by simp [RequestRecord.brokenBy, hnone]), ih]

theorem endRecord_of_unchained {s : State} (h : ∀ r ∈ s.req.list, r.predecessor = none) (id : Nat) :
    endRecord id .targetGone .nothing s = closeRecord id .targetGone .nothing s := by
  rw [endRecord_targetGone, breakChain_of_unchained]
  intro r hr
  rw [closeRecord_list, List.mem_map] at hr
  obtain ⟨q, hq, rfl⟩ := hr
  split <;> exact h q hq

/-- An application record after its target has become absent. -/
def RequestRecord.left (n : Nat) (r : RequestRecord) : RequestRecord :=
  if r.goneFor n then r.closed .targetGone .nothing else r

/-- The REQUEST event of a record that ends TARGET_GONE. -/
def RequestRecord.departure (round : Half) (r : RequestRecord) : EventRecord := ⟨.request, 6, r.tag, r.target, 0, round⟩

theorem left_frame (n : Nat) (r : RequestRecord) : (r.left n).id = r.id ∧ (r.left n).predecessor = r.predecessor := by
  unfold RequestRecord.left
  split <;> exact ⟨rfl, rfl⟩

/-- The records from one on end TARGET_GONE in list order, each with its event. -/
theorem foldl_recordAbsent (n : Nat) (rest before : List RequestRecord) (s : State) (hlist : s.req.list = before ++ rest)
    (hids : ((before ++ rest).map (·.id)).Nodup) (hchain : ∀ r ∈ before ++ rest, r.predecessor = none) :
    (rest.map (·.id)).foldl (recordAbsent n) s
      = { s with
          req := { s.req with list := before ++ rest.map (·.left n) }
          raised := s.raised
            ++ (rest.filter fun r => r.goneFor n).map (·.departure s.slot.round) } := by
  induction rest generalizing before s with
  | nil =>
    simp only [List.map_nil, List.foldl_nil, List.filter_nil, List.append_nil] at hlist ⊢
    rw [← hlist]
  | cons r rest ih =>
    have hne : ∀ q ∈ before ++ rest, q.id ≠ r.id := by
      have hperm : (r :: (before ++ rest)).Perm (before ++ r :: rest) := List.perm_middle.symm
      have hnodup := ((hperm.map (·.id)).nodup_iff).mpr hids
      rw [List.map_cons, List.nodup_cons] at hnodup
      exact fun q hq h => hnodup.1 (h ▸ List.mem_map_of_mem hq)
    have hrec := record?_of_split hlist fun q hq => hne q (List.mem_append_left _ hq)
    have hids' : ((before ++ [r.left n] ++ rest).map (·.id)).Nodup := by simpa [(left_frame n r).1] using hids
    have hchain' : ∀ q ∈ before ++ [r.left n] ++ rest, q.predecessor = none := by
      intro q hq
      have hq : q ∈ before ∨ q = r.left n ∨ q ∈ rest := by simpa using hq
      rcases hq with hq | rfl | hq
      · exact hchain q (by simp [hq])
      · exact (left_frame n r).2.trans (hchain r (by simp))
      · exact hchain q (by simp [hq])
    rw [List.map_cons, List.foldl_cons]
    by_cases hgone : r.goneFor n
    · have hleft : r.left n = r.closed .targetGone .nothing := if_pos hgone
      have hstep : recordAbsent n s r.id
          = { s with
              req := { s.req with list := before ++ [r.left n] ++ rest }
              raised := s.raised ++ [r.departure s.slot.round] } := by
        rw [recordAbsent_of_gone hrec hgone, endRecord_of_unchained (hlist ▸ hchain), closeRecord_of_split hlist hne hgone.1, hleft,
          List.append_assoc]
        rfl
      have hfilter : (r :: rest).filter (fun r => r.goneFor n) = r :: rest.filter fun r => r.goneFor n :=
        List.filter_cons_of_pos (decide_eq_true hgone)
      rw [hstep, ih _ _ rfl hids' hchain', hfilter]
      simp
    · have hleft : r.left n = r := if_neg hgone
      rw [hleft] at hids' hchain'
      have hfilter : (r :: rest).filter (fun r => r.goneFor n) = rest.filter fun r => r.goneFor n :=
        List.filter_cons_of_neg fun h => hgone (of_decide_eq_true h)
      rw [recordAbsent_of_not (by rw [hrec]; rintro q ⟨⟩; exact hgone), ih (before ++ [r]) s (by simpa using hlist) hids' hchain',
        hfilter]
      simp [hleft]

end Sys2Proof.Machine

namespace Sys2Proof.Machine

/-! ## The entries of an absent source (R109, R113, R115) -/

theorem announce_image (event : Option Nat) (i : Nat) (e : ImageEntry) (s : State) : (announce event i e s).image = s.image := by
  cases event <;> rfl

/-- With or without an event the entry passes as `ImageEntry.passed` says. -/
theorem passEntry_event_image {st : EntryState} (hst : st.unserved = true) (event : Option Nat) (i : Nat) (s : State) :
    (passEntry i st event s).image = s.image.modify i (·.passed st) := by
  rw [passEntry_eq, reportBoth]
  simp only [hst, if_true]
  have hannounced : (announce event i (s.entry i) (s.modEntry i (·.pass st))).image = s.image.modify i (·.pass st) := announce_image ..
  split
  · rw [missEntry_image]
    exact reportSubstitution_image hannounced
  · exact reportSubstitution_image ((missEntry_image ..).trans hannounced)

theorem passEntry_entry {st : EntryState} (hst : st.unserved = true) (event : Option Nat) {i : Nat} {s : State} (hi : i < s.image.length)
    (j : Nat) : (passEntry i st event s).entry j = if j = i then (s.entry j).passed st else s.entry j := by
  have h := entry_modEntry i j (·.passed st) s
  rw [State.entry, modEntry_image, ← passEntry_event_image hst event] at h
  refine Eq.trans h (if_congr ⟨fun h => h.1.symm, fun h => ⟨h.symm, h ▸ hi⟩⟩ rfl rfl)

/-- The events of a passage: its ENTRY event, then those of its watch and of the collector. -/
theorem passEntry_entryEvents (st : EntryState) (code : Nat) {i : Nat} {s : State} (hi : i < s.image.length) :
    ofKind .entry (passEntry i st (some code) s).raised
      = ofKind .entry s.raised ++ [(s.entry i).passage i code st s.slot.round] := by
  set t := announce (some code) i (s.entry i) (s.modEntry i (·.pass st))
  have hreports : Raises (fun e => e.kind = .watch ∨ e.kind = .snapshot) t (passEntry i st (some code) s) := by
    rw [passEntry_eq]
    refine reportBoth_keeps (P := Raises _ t) (fun u hu => hu.trans ?_) (fun u hu => hu.trans ?_) i (.of_eq rfl)
    · rcases reportSubstitution_cases i (s.entry i) u with h | ⟨l, -, -, -, h⟩ <;> rw [h]
      · exact .of_eq rfl
      · exact evaluateWatch_raises ..
    · split
      · exact (missEntry_moves i u).raises.mono fun _ => .inr
      · exact .of_eq rfl
  obtain ⟨es, hes, hkind⟩ := hreports
  have hvalue : ((s.modEntry i (·.pass st)).entry i).value = ((s.entry i).passed st).value := by
    rw [entry_modEntry, if_pos ⟨rfl, hi⟩]
    rfl
  have ht : t.raised = s.raised ++ [(s.entry i).passage i code st s.slot.round] := by
    show s.raised ++ [⟨.entry, code, i, (s.entry i).state.code, ((s.modEntry i (·.pass st)).entry i).value, s.slot.round⟩] = _
    rw [hvalue]
    rfl
  have hnone : ofKind .entry es = [] := ofKind_eq_nil fun e he => by rcases hkind e he with h | h <;> simp [h]
  rw [hes, ofKind_append, hnone, List.append_nil, ht, ofKind_append]
  rfl

/-- The entries below `m`, as a reaction that passes each entry of which `p` holds comes to them in order of index. -/
theorem foldl_passEntry {st : EntryState} (hst : st.unserved = true) (p : ImageEntry → Bool) (code : Nat) (s : State) (m : Nat)
    (hm : m ≤ s.image.length) :
    let t := (List.range m).foldl (fun t i => if p (t.entry i) then passEntry i st (some code) t else t) s
    t.image.length = s.image.length ∧ t.slot = s.slot
      ∧ (∀ j, t.entry j = if j < m ∧ p (s.entry j) then (s.entry j).passed st else s.entry j)
      ∧ ofKind .entry t.raised
        = ofKind .entry s.raised
          ++ (List.range m).filterMap fun i => if p (s.entry i) then some ((s.entry i).passage i code st s.slot.round) else none := by
  induction m with
  | zero => simp
  | succ m ih =>
    obtain ⟨hlen, hslot, hentry, hevents⟩ := ih (Nat.le_of_succ_le hm)
    simp only [List.range_succ, List.foldl_append, List.foldl_cons, List.foldl_nil, List.filterMap_append]
    set t := (List.range m).foldl (fun t i => if p (t.entry i) then passEntry i st (some code) t else t) s
    have hnow : t.entry m = s.entry m := by simp [hentry]
    have hlt : m < t.image.length := by omega
    rw [hnow]
    by_cases hp : p (s.entry m) = true
    · rw [if_pos hp]
      refine ⟨?_, (congrArg State.slot (passEntry_outsideImage m st (some code) t) :).trans hslot, fun j => ?_, ?_⟩
      · rw [passEntry_event_image hst, List.length_modify, hlen]
      · rw [passEntry_entry hst _ hlt, hentry]
        by_cases hj : j = m
        · subst hj
          simp [hp]
        · have hlt' : j < m + 1 ↔ j < m := by omega
          simp [hj, hlt']
      · rw [passEntry_entryEvents st code hlt, hevents, hnow, hslot]
        simp [hp]
    · rw [if_neg hp]
      refine ⟨hlen, hslot, fun j => ?_, ?_⟩
      · rw [hentry]
        by_cases hj : j = m
        · subst hj
          simp [hp]
        · have hlt' : j < m + 1 ↔ j < m := by omega
          simp [hlt']
      · rw [hevents]
        simp [hp]

/-- The entries that an absence undermines are those of the source that rest on its catalogue (R109). -/
theorem restsOnSource_iff (n : Nat) (e : ImageEntry) : (e.follows n && e.restsOnCatalogue) = true ↔ e.source = n ∧ e.rests := by
  have hrests : e.restsOnCatalogue = true ↔ e.rests := by
    unfold ImageEntry.restsOnCatalogue ImageEntry.rests
    cases h : e.state <;> simp [EntryState.served]
  have hfree : e.rests → e.state ≠ .free := by
    intro h hf
    rw [ImageEntry.rests, hf] at h
    simp at h
  rw [Bool.and_eq_true, hrests]
  simp only [ImageEntry.follows, Bool.and_eq_true, beq_iff_eq, bne_iff_ne]
  exact ⟨fun h => ⟨h.1.1, h.2⟩, fun h => ⟨⟨h.1, hfree h.2⟩, h.2⟩⟩

theorem lost_unserved : EntryState.lost.unserved = true := rfl

theorem imageAbsent_entry (n : Nat) (s : State) (i : Nat) :
    (imageAbsent n s).entry i = if (s.entry i).source = n ∧ (s.entry i).rests then (s.entry i).passed .lost else s.entry i := by
  obtain ⟨-, -, hentry, -⟩ :=
    foldl_passEntry lost_unserved (fun e => e.follows n && e.restsOnCatalogue) 4 s s.image.length le_rfl
  refine (hentry i).trans (if_congr ?_ rfl rfl)
  rw [restsOnSource_iff]
  refine and_iff_right_of_imp fun ⟨_, h⟩ => lt_of_entry fun hf => ?_
  rw [ImageEntry.rests, hf] at h
  simp at h

theorem imageAbsent_entryEvents (n : Nat) (s : State) :
    ofKind .entry (imageAbsent n s).raised
      = ofKind .entry s.raised ++ s.passages (fun e => e.source = n ∧ e.rests) 4 .lost := by
  obtain ⟨-, -, -, hevents⟩ :=
    foldl_passEntry lost_unserved (fun e => e.follows n && e.restsOnCatalogue) 4 s s.image.length le_rfl
  refine hevents.trans (congrArg _ (List.filterMap_congr fun i _ => if_congr ?_ rfl rfl))
  rw [restsOnSource_iff, decide_eq_true_iff]

theorem imageAbsent_ofImage (n : Nat) (s : State) : Raises EventRecord.ofImage s (imageAbsent n s) :=
  forEntries_raises (fun i s => passEntry_ofImage i _ _ s) s

/-- The absence of a station that is no entry's source leaves the image unit as it is. -/
theorem imageAbsent_of_none {n : Nat} {s : State} (h : ∀ e ∈ s.image, e.source ≠ n) : imageAbsent n s = s := by
  have hstand : ∀ i, ¬((s.entry i).follows n && (s.entry i).restsOnCatalogue) = true := by
    intro i hp
    obtain ⟨hsource, hrests⟩ := (restsOnSource_iff n _).mp hp
    have hi : i < s.image.length := lt_of_entry fun hf => by
      rw [ImageEntry.rests, hf] at hrests
      simp at hrests
    rw [State.entry, List.getD_eq_getElem _ _ hi] at hsource
    exact h _ (List.getElem_mem hi) hsource
  unfold imageAbsent forEntries
  generalize List.range s.image.length = is
  induction is with
  | nil => rfl
  | cons i is ih => rw [List.foldl_cons, if_neg (hstand i), ih]

end Sys2Proof.Machine

namespace Sys2Proof.Machine

/-! ## The passage of a peer to ABSENT (R80, R81, R109, R145) -/

/-- The request unit's part depends on the request list and the round only. -/
theorem requestsAbsent_withRequests {u s : State} (h : u.slot.round = s.slot.round) (n : Nat) :
    requestsAbsent n (u.withRequests s) = u.withRequests (requestsAbsent n s) := by
  have step {t : State} (ht : u.slot.round = t.slot.round) (id : Nat) :
      recordAbsent n (u.withRequests t) id = u.withRequests (recordAbsent n t id)
        ∧ u.slot.round = (recordAbsent n t id).slot.round := by
    have hrecord : (u.withRequests t).record? id = t.record? id := rfl
    unfold recordAbsent
    rw [hrecord]
    split
    · exact ⟨rfl, ht⟩
    · split
      · exact ⟨endRecord_withRequests ht .., ht.trans (congrArg (·.slot.round) (endRecord_outsideRequests ..).symm :)⟩
      · exact ⟨rfl, ht⟩
  rw [requestsAbsent_eq, requestsAbsent_eq, show (u.withRequests s).recordIds = s.recordIds from rfl]
  generalize s.recordIds = ids
  induction ids generalizing s with
  | nil => rfl
  | cons id ids ih => rw [List.foldl_cons, List.foldl_cons, (step h id).1, ih (step h id).2]

theorem modPeer_eq_set {n : Nat} {s : State} (h0 : n ≠ 0) (hs : n ≠ s.ctl.config.station) (hn : n ≤ s.peers.length)
    (f : PeerRecord → PeerRecord) : s.modPeer n f = { s with peers := s.peers.set (n - 1) (f (s.peer n)) } := by
  have hlt : n - 1 < s.peers.length := by omega
  rw [State.modPeer, if_neg (not_or.mpr ⟨h0, hs⟩), State.peer, List.getD_eq_getElem _ _ hlt, List.modify_eq_set_getElem?,
    List.getElem?_eq_getElem hlt]
  rfl

/-- A peer's record on its passage to ABSENT (R80, R81). -/
def PeerRecord.absent (p : PeerRecord) : PeerRecord :=
  { p with
    presence := .absent, heardSlots := 0, wentAbsent := true, lastSequence := none
    catalogue := if p.catalogue = .failed then .failed else .unknown
    shapes := List.replicate 32 none, count := none, layout := none }

/-- What the other blocks make of a passage to ABSENT (R81, R109, R145). -/
def tellAbsent (n : Nat) (s : State) : State :=
  requestsAbsent n (imageAbsent n (removeDiscovery n (raise .peer 2 n 0 0 s)))

/-- A peer that loses one of several slots. -/
theorem loseSlot_of_more {s : State} {n : Nat} (h0 : 1 ≤ n) (hs : n ≠ s.ctl.config.station) (hn : n ≤ s.peers.length)
    (hmore : 2 ≤ (s.peer n).heardSlots) :
    loseSlot n s = { s with peers := s.peers.modify (n - 1) fun q => { q with heardSlots := q.heardSlots - 1 } } := by
  have h0 : n ≠ 0 := Nat.ne_of_gt h0
  have hcount : ((s.modPeer n fun p => { p with heardSlots := p.heardSlots - 1 }).peer n).heardSlots ≠ 0 := by
    rw [peer_modPeer h0 hs hn]
    show (s.peer n).heardSlots - 1 ≠ 0
    omega
  exact (if_neg (not_or.mpr ⟨h0, hs⟩)).trans ((if_neg hcount).trans (if_neg (not_or.mpr ⟨h0, hs⟩)))

/-- A peer that loses its last slot passes to ABSENT. -/
theorem loseSlot_last {s : State} {n : Nat} (h0 : 1 ≤ n) (hs : n ≠ s.ctl.config.station) (hn : n ≤ s.peers.length)
    (hone : (s.peer n).heardSlots = 1) :
    loseSlot n s = tellAbsent n { s with peers := s.peers.set (n - 1) (s.peer n).absent } := by
  have h0 : n ≠ 0 := Nat.ne_of_gt h0
  set u := s.modPeer n fun p => { p with heardSlots := p.heardSlots - 1 } with hu
  have hpeer : u.peer n = { s.peer n with heardSlots := 0 } := by
    rw [hu, peer_modPeer h0 hs hn, hone]
  have hset := modPeer_eq_set h0 hs hn fun p => { p with heardSlots := p.heardSlots - 1 }
  rw [← hu, hone] at hset
  have hstation : n ≠ u.ctl.config.station := by rw [hset]; exact hs
  have hlen : n ≤ u.peers.length := by rw [hset, List.length_set]; exact hn
  refine (if_neg (not_or.mpr ⟨h0, hs⟩)).trans ((if_pos (show (u.peer n).heardSlots = 0 by rw [hpeer])).trans ?_)
  rw [becomeAbsent, tellAbsent, modPeer_eq_set h0 hstation hlen, hpeer, hset]
  simp only [List.set_set]
  rfl

/-- The passage of a peer to ABSENT: the entries that rest on it, the request list, and the events of each. -/
theorem tellAbsent_spec {n : Nat} {s kept : State} (hraised : s.raised = []) (hkept : kept.raised = [])
    (hround : kept.slot.round = s.slot.round)
    (hreq : kept.req = { s.req with list := s.req.list.filter fun r => !(r.origin == .discovery && r.target == n) }) :
    (tellAbsent n s).peers = s.peers ∧ (tellAbsent n s).slot = s.slot ∧ (tellAbsent n s).due = s.due ∧ (tellAbsent n s).host = s.host
      ∧ (∀ i, (tellAbsent n s).entry i
          = if (s.entry i).source = n ∧ (s.entry i).rests then (s.entry i).passed .lost else s.entry i)
      ∧ (tellAbsent n s).req = (requestsAbsent n kept).req
      ∧ ofKind .peer (tellAbsent n s).raised = [⟨.peer, 2, n, 0, 0, s.slot.round⟩]
      ∧ ofKind .entry (tellAbsent n s).raised = s.passages (fun e => e.source = n ∧ e.rests) 4 .lost
      ∧ ofKind .request (tellAbsent n s).raised = (requestsAbsent n kept).raised := by
  set u := removeDiscovery n (raise .peer 2 n 0 0 s)
  have hu : u.raised = [⟨.peer, 2, n, 0, 0, s.slot.round⟩] := by
    show s.raised ++ _ = _
    rw [hraised]
    rfl
  set w := imageAbsent n u
  have hwframe : w.outsideImage = u.outsideImage := imageAbsent_outsideImage n u
  obtain ⟨es, hes, himage⟩ := imageAbsent_ofImage n u
  obtain ⟨fs, hfs, hrequest⟩ := requestsAbsent_raises n kept
  rw [hkept, List.nil_append] at hfs
  have hself : w.withRequests kept = w := by
    have hwreq : w.req = kept.req := (congrArg State.req hwframe :).trans hreq.symm
    rw [State.withRequests, hkept, List.append_nil, ← hwreq]
  have htold : tellAbsent n s = w.withRequests (requestsAbsent n kept) := by
    have hwround : w.slot.round = kept.slot.round := (congrArg (·.slot.round) hwframe :).trans hround.symm
    rw [← requestsAbsent_withRequests hwround, hself]
    rfl
  have hevents : (tellAbsent n s).raised = (u.raised ++ es) ++ fs := by
    rw [htold, ← hes, ← hfs]
    rfl
  have noImage {k : EventKind} (hk : k ≠ .entry ∧ k ≠ .watch ∧ k ≠ .snapshot) : ofKind k es = [] := ofKind_eq_nil fun e he => by
    rcases himage e he with h | h | h <;> rw [h]
    · exact hk.1.symm
    · exact hk.2.1.symm
    · exact hk.2.2.symm
  have hentries : ofKind .entry w.raised = s.passages (fun e => e.source = n ∧ e.rests) 4 .lost := by
    rw [imageAbsent_entryEvents, hu]
    rfl
  have hframe : (tellAbsent n s).outsidePeers = { s with req := kept.req }.outsidePeers := by
    rw [hreq]
    exact (requestsAbsent_outsidePeers n w).trans (imageAbsent_outsidePeers n u)
  refine ⟨?_, (congrArg State.slot hframe :), (congrArg State.due hframe :), (congrArg State.host hframe :), fun i => ?_, ?_, ?_, ?_,
    ?_⟩
  · rw [htold]
    exact (congrArg State.peers hwframe :)
  · rw [htold]
    exact imageAbsent_entry n u i
  · rw [htold]
    rfl
  · rw [hevents, ofKind_append, ofKind_append, noImage (by simp), ofKind_other hrequest (by simp), hu]
    rfl
  · rw [hevents, ofKind_append, ← hes, hentries, ofKind_other hrequest (by simp), List.append_nil]
  · rw [hevents, ofKind_append, ofKind_append, noImage (by simp), ofKind_self hrequest, hu, hfs]
    rfl

/-- Where nothing of this station's concerns the peer, its passage to ABSENT is told in an event and no more. -/
theorem tellAbsent_of_none {n : Nat} {s : State} (himage : ∀ e ∈ s.image, e.source ≠ n)
    (hlist : ∀ r ∈ s.req.list, r.target ≠ n) : tellAbsent n s = raise .peer 2 n 0 0 s := by
  have hfilter : (s.req.list.filter fun r => !(r.origin == .discovery && r.target == n)) = s.req.list :=
    List.filter_eq_self.mpr fun r hr => by simp [hlist r hr]
  have hremove : removeDiscovery n (raise .peer 2 n 0 0 s) = raise .peer 2 n 0 0 s := by
    simp only [removeDiscovery, State.modList, State.modReq, raise, hfilter]
  rw [tellAbsent, hremove, imageAbsent_of_none (s := raise .peer 2 n 0 0 s) himage]
  exact requestsAbsent_of_none fun r hr hgone => hlist r hr hgone.2.1

/-! ### The silence limit (R27) -/

/-- A HEARD record that becomes FREE takes a slot from its owner (R80). -/
theorem becomeFree_of_owner {s : State} {k o : Nat} (h : (s.slotAt k).state.owner? = some o) :
    becomeFree k s = loseSlot o (s.modSlotAt k fun r => { r with state := .free, ownerHeard := false }) := by
  have hafter : ((s.modSlotAt k fun r => { r with state := .free, ownerHeard := false }).slotAt k).state.owner? = none := by
    rw [slotAt_modSlotAt]
    split <;> rfl
  simp only [becomeFree, setSlotState, h, hafter, changeOwner, reduceCtorEq, if_false]

theorem takeSilence_of_notDue {s : State} (h : s.due.silence = none) : takeSilence s = s := by
  simp only [takeSilence, h]

/-- A record whose owner was silent to the limit becomes FREE, and its owner loses the slot (R27, R80). -/
theorem takeSilence_of_reached {s : State} {k o n : Nat} (hdue : s.due.silence = some k) (hst : (s.slotAt k).state = .heard o n)
    (hheard : (s.slotAt k).ownerHeard = false) (hn : 2 ≤ n) :
    takeSilence s
      = loseSlot o { s with
          due := { s.due with silence := none }
          slot := { s.slot with map := s.slot.map.modify k fun r => { r with state := .free, ownerHeard := false } } } := by
  set u := s.modDue fun d => { d with silence := none }
  have hreached : (u.slotAt k).silenceReached = true := by
    show (s.slotAt k).silenceReached = true
    simp [SlotRecord.silenceReached, hst, hheard, hn, Config.silenceLimit]
  simp only [takeSilence, hdue]
  exact (if_pos hreached).trans (becomeFree_of_owner (s := u) (congrArg SlotState.owner? hst))

/-- Settles O45. -/
theorem silenceFreesTheRecord : Obligations.SilenceFreesTheRecord := by
  refine ⟨fun s n hids => ?_, fun s hlive hsettled => ⟨fun hdue => ?_, fun k o n hdue hst hheard hn ho hlen hown => ?_⟩⟩
  · refine ⟨fun h => requestsAbsent_of_none h, fun before after r hlist hr hbefore => requestsAbsent_of_first hids hlist hr hbefore,
      fun hchain => ?_⟩
    rw [requestsAbsent_eq]
    exact foldl_recordAbsent n s.req.list [] s rfl hids hchain
  · exact gives_reaction hlive rfl (takeSilence_of_notDue hdue) hsettled
  · intro freed p absent kept
    have hfreed : takeSilence s = loseSlot o freed := takeSilence_of_reached hdue hst hheard hn
    refine ⟨fun hmore => ?_, fun hone => ?_⟩
    · exact gives_reaction hlive rfl (hfreed.trans (loseSlot_of_more (s := freed) ho hown hlen hmore)) hsettled
    · have hlast : takeSilence s = tellAbsent o { freed with peers := s.peers.set (o - 1) absent } :=
        hfreed.trans (loseSlot_last (s := freed) ho hown hlen hone)
      refine ⟨leads_reaction (f := takeSilence) hlive rfl ?_, fun himage hlist => ?_⟩
      · rw [hlast]
        set a : State := { freed with peers := s.peers.set (o - 1) absent }
        obtain ⟨hpeers, hslot, hdue', hhost, hentry, hreq, hpeer, hentries, hrequests⟩ :=
          tellAbsent_spec (n := o) (s := a) (kept := kept) hsettled hsettled rfl rfl
        obtain ⟨es, hqueue, hkinds, -⟩ := finish_takes (tellAbsent o a)
        rw [hhost] at hqueue
        have hframe := finish_frame (tellAbsent o a)
        refine ⟨?_, ?_, ?_, fun i => ?_, ?_, es, hqueue, ?_, ?_, ?_⟩
        · exact (congrArg State.peers hframe).trans hpeers
        · exact (congrArg State.slot hframe).trans hslot
        · exact (congrArg State.due hframe).trans hdue'
        · exact (congrArg (·.entry i) hframe).trans (hentry i)
        · exact (congrArg State.req hframe).trans hreq
        · exact (hkinds .peer (by simp)).trans hpeer
        · exact (hkinds .entry (by simp)).trans hentries
        · exact (hkinds .request (by simp)).trans hrequests
      · have hraise := hlast.trans (tellAbsent_of_none (s := { freed with peers := s.peers.set (o - 1) absent }) himage hlist)
        refine gives_reaction_one (f := takeSilence) hlive rfl (by rw [hraise, raise_raised]; exact congrArg (· ++ _) hsettled) ?_
        rw [hraise, State.withEvent, ← hsettled]
        rfl

end Sys2Proof.Machine

namespace Sys2Proof.Machine

/-! ## Entering OFF: the collector ends a collection in course (R162) -/

/-- The SNAPSHOT event is all that the report of a collection's end adds to the state (R157). -/
theorem raiseSnapshot_eq_of_over {u : UnitId} {s : State} {x : SnapshotUnit} {st : UnitState} {summary : Summary}
    (h : s.unit u = x.over st summary s.slot.round) :
    raiseSnapshot u s = { s with raised := s.raised ++ [x.ending u summary.code s.slot.round] } := by
  rw [← raiseSnapshot_of_over h]
  rfl

/-- A collection that ends ABORTED changes its own unit and raises its event (R157, R162). -/
theorem abortCollection_eq (u : UnitId) (s : State) :
    abortCollection u s
      = { s.modUnit u (·.over .armed .aborted s.slot.round) with
          raised := s.raised ++ [(s.unit u).ending u 3 s.slot.round] } := by
  have hover : (s.modUnit u (·.over .armed .aborted s.slot.round)).unit u
      = (s.unit u).over .armed .aborted (s.modUnit u (·.over .armed .aborted s.slot.round)).slot.round := by
    cases u <;> rfl
  refine (raiseSnapshot_eq_of_over hover).trans ?_
  cases u <;> rfl

/-- With a unit COLLECTING and no trigger waiting, the collector's own reaction ends the collection ABORTED, its pending places MISSING and
the unit ARMED, and disarms the other unit (R162). -/
theorem collectorOff_aborts {u : UnitId} {s : State} (hcalled : s.called = 0) (hu : (s.unit u).state = .collecting)
    (ho : (s.unit u.other).state ≠ .collecting) :
    collectorOff s
      = { (s.modUnit u (·.over .armed .aborted s.slot.round)).modUnit u.other (·.disarm) with
          began := false, raised := s.raised ++ [(s.unit u).ending u 3 s.slot.round] } := by
  have htake : takeCall s = { s with began := false } := by rw [takeCall, answerCall_of_none hcalled]
  have hcollecting : (takeCall s).collecting? = some u := by
    rw [htake]
    exact collecting?_of (s := s) hu ho
  rw [collectorOff_of_collecting hcollecting, abortCollection_eq, htake]
  cases u <;> rfl

/-- Settles O12. -/
theorem enteringOffLeavesTheBlocksSo : Obligations.EnteringOffLeavesTheBlocksSo := by
  intro s cause t
  refine ⟨enterOff_entersOff cause s, enterOff_host cause s, fun u hcalled hother => ?_⟩
  intro x aborted event disarm hcollecting _
  refine (collectorOff_aborts hcalled hcollecting hother).trans ?_
  cases u <;> rfl

/-! ## SET_CONDITION and FEED (R54, R56) -/

/-- A feed, with the event it raises in the queue, is `State.fed` (R56). -/
theorem finish_feedTimer_visible {s : State} (hsettled : s.settled) : (finish (feedTimer s)).visible = s.fed.visible := by
  by_cases hoff : s.ctl.state = .off
  · rw [feedTimer, if_pos hoff, State.fed, if_pos hoff, finish_visible s hsettled]
  · rw [feedTimer, if_neg hoff, State.fed, if_neg hoff]
    cases hlost : s.ctl.cond.hostLost with
    | true =>
      refine (finish_visible_one (e := ⟨.station, 3, s.ctl.config.station, 0, 0, s.slot.round⟩) ?_).trans ?_
      · exact congrArg (· ++ _) hsettled
      · rw [State.withEvent, if_pos rfl, if_pos rfl, ← hsettled]
        rfl
    | false =>
      refine (finish_visible _ ?_).trans ?_
      · exact hsettled
      · rw [if_neg Bool.false_ne_true, if_neg Bool.false_ne_true, ← hlost]
        rfl

/-- Settles O13. -/
theorem setConditionAndFeed : Obligations.SetConditionAndFeed := by
  refine ⟨⟨fun s top operand hready => ?_, fun s cause => ?_⟩, fun s top operand hready hsettled => ?_⟩
  · have row : exec (.setCondition top operand) s = .next (takeCommand (commandWord top 0x07 operand) setConditionEffect s) := rfl
    refine ⟨fun hset => gives_taken row hready (if_pos hset) rfl, fun hclear => ?_, fun hother => ?_⟩
    · have hset : s.argNat 0 ≠ 1 := by omega
      exact gives_taken row hready ((if_neg hset).trans (if_pos hclear)) rfl
    · have hset : s.argNat 0 ≠ 1 := by omega
      have hclear : s.argNat 0 ≠ 0 := by omega
      exact gives_taken_same row hready ((if_neg hset).trans (if_neg hclear))
  · rw [enterOff_ctl]
  · exact gives_taken rfl hready rfl (finish_feedTimer_visible hsettled)

end Sys2Proof.Machine

namespace Sys2Proof.Machine

/-! ## What keeps the event queue and the answer queue in their bounds (R69, R74, R168)

Within a step events wait in `raised` and enter the queue at its end only, so that almost every operation leaves the host link alone; and the
answer side alone changes its queue. `KeepsQueues s t` says that both bounds go from `s` to `t`, whatever events wait; `EndsQueues s t`, of a
whole step, that no event is left waiting either. -/

/-- The bound of the event queue and the law of the answer queue go from `s` to `t`. -/
structure KeepsQueues (s t : State) : Prop where
  events : s.host.events.length ≤ 32 → t.host.events.length ≤ 32
  answers : s.AnswersLaw → t.AnswersLaw

theorem KeepsQueues.refl (s : State) : KeepsQueues s s := ⟨id, id⟩

theorem KeepsQueues.trans {s t u : State} (h : KeepsQueues s t) (g : KeepsQueues t u) : KeepsQueues s u :=
  ⟨g.events ∘ h.events, g.answers ∘ h.answers⟩

/-- A change that leaves the host link, and of the answers at most takes some away. -/
theorem KeepsQueues.of_sublist {s t : State} (host : t.host = s.host) (answers : t.pub.answers.Sublist s.pub.answers) :
    KeepsQueues s t where
  events h := by rwa [host]
  answers h := ⟨answers.length_le.trans h.1, h.2.sublist (answers.map _)⟩

/-- A change outside the two queues. -/
theorem KeepsQueues.of_queues {s t : State} (host : t.host = s.host := by rfl)
    (answers : t.pub.answers = s.pub.answers := by rfl) : KeepsQueues s t :=
  .of_sublist host (answers ▸ .refl _)

/-- A change outside the two queues before a change that keeps them. -/
theorem KeepsQueues.after {s s' t : State} (h : KeepsQueues s' t) (host : s'.host = s.host := by rfl)
    (answers : s'.pub.answers = s.pub.answers := by rfl) : KeepsQueues s t := (KeepsQueues.of_queues host answers).trans h

theorem KeepsQueues.of_map {s t : State} (h : t.outsideMap = s.outsideMap) : KeepsQueues s t :=
  .of_queues (congrArg State.host h :) (congrArg (·.pub.answers) h :)

theorem KeepsQueues.of_peers {s t : State} (h : t.outsidePeers = s.outsidePeers) : KeepsQueues s t := .of_map (outsideMap_of_peers h)

theorem KeepsQueues.of_image {s t : State} (h : t.outsideImage = s.outsideImage) : KeepsQueues s t := .of_peers (outsidePeers_of_image h)

theorem KeepsQueues.of_units {s t : State} (h : t.outsideUnits = s.outsideUnits) : KeepsQueues s t := .of_image (outsideImage_of_units h)

theorem KeepsQueues.of_requests {s t : State} (h : t.outsideRequests = s.outsideRequests) : KeepsQueues s t :=
  .of_peers (outsidePeers_of_requests h)

theorem KeepsQueues.ite {p : Prop} [Decidable p] {s t u : State} (ht : KeepsQueues s t) (hu : KeepsQueues s u) :
    KeepsQueues s (if p then t else u) := by
  split
  · exact ht
  · exact hu

/-- An action on condition. -/
theorem KeepsQueues.when {p : Prop} [Decidable p] {s t : State} (h : KeepsQueues s t) : KeepsQueues s (if p then t else s) :=
  .ite h (.refl s)

/-- An action but on condition. -/
theorem KeepsQueues.unless {p : Prop} [Decidable p] {s t : State} (h : KeepsQueues s t) : KeepsQueues s (if p then s else t) :=
  .ite (.refl s) h

theorem foldl_keepsQueues {α : Type} {act : State → α → State} (h : ∀ s a, KeepsQueues s (act s a)) (l : List α) (s : State) :
    KeepsQueues s (l.foldl act s) :=
  foldl_keeps (P := KeepsQueues s) (fun t a ht => ht.trans (h t a)) l (.refl s)

/-! ### The answer side (R68 to R76) -/

/-- A repeat of a request has the key of the answer that is still queued (R69). -/
theorem answers_iff (a : Answer) (n : Nat) (r : RequestSection) : a.answers n r = true ↔ a.key = (n, r.tag, r.kind, r.index) := by
  simp [Answer.answers, Answer.key, and_assoc]

/-- An answer to a request that is no repeat, where there is room for it (R69, R74). -/
theorem enterAnswer_keepsQueues {n : Nat} {r : RequestSection} {s : State} (hnew : ¬s.pub.answers.any (·.answers n r) = true)
    (hroom : s.pub.answers.length < 4) (o : AnswerOutcome) (c : Content) : KeepsQueues s (enterAnswer n r o c s) where
  events := id
  answers := by
    rintro ⟨-, hdistinct⟩
    refine ⟨by simpa [enterAnswer] using hroom, ?_⟩
    have hkey : (n, r.tag, r.kind, r.index) ∉ s.pub.answers.map Answer.key := fun h => by
      obtain ⟨a, ha, hk⟩ := List.mem_map.mp h
      exact hnew (List.any_eq_true.mpr ⟨a, ha, (answers_iff a n r).mpr hk⟩)
    simpa [enterAnswer, Answer.key, List.nodup_append, hdistinct] using hkey

theorem applyWrite_host (i n code : Nat) (v : Option Word) (s : State) : (applyWrite i n code v s).host = s.host := by cases v <;> rfl

theorem applyWrite_answerQueue (i n code : Nat) (v : Option Word) (s : State) :
    (applyWrite i n code v s).pub.answers = s.pub.answers := by cases v <;> rfl

theorem applyWrite_keepsQueues (i n code : Nat) (v : Option Word) (s : State) : KeepsQueues s (applyWrite i n code v s) :=
  .of_queues (applyWrite_host ..) (applyWrite_answerQueue ..)

theorem serveRequest_keepsQueues {n : Nat} {r : RequestSection} {s : State} (hnew : ¬s.pub.answers.any (·.answers n r) = true)
    (hroom : s.pub.answers.length < 4) : KeepsQueues s (serveRequest n r s) := by
  unfold serveRequest
  split
  · refine (applyWrite_keepsQueues ..).trans (enterAnswer_keepsQueues ?_ ?_ ..)
    · rwa [applyWrite_answerQueue]
    · rwa [applyWrite_answerQueue]
  · exact enterAnswer_keepsQueues hnew hroom ..
  · exact enterAnswer_keepsQueues hnew hroom ..

/-- A request enters an answer only where it is no repeat and the queue has room (R69). -/
theorem requestArrival_keepsQueues (n : Nat) (r : RequestSection) (s : State) : KeepsQueues s (requestArrival n r s) := by
  have count (f : Publication → Publication) (hf : (f s.pub).answers = s.pub.answers) : KeepsQueues s (s.modPub f) := .of_queues rfl hf
  refine .ite (count _ rfl) (.ite (.ite (applyWrite_keepsQueues ..) (count _ rfl)) (.when (.ite ?_ (count _ rfl))))
  split
  · exact .refl s
  · next hnew =>
    split
    · exact count _ rfl
    · next hfull => exact serveRequest_keepsQueues hnew (Nat.lt_of_not_le hfull)

theorem requestTaken_keepsQueues (f : Frame) (s : State) : KeepsQueues s (requestTaken f s) := by
  unfold requestTaken
  split
  · exact requestArrival_keepsQueues ..
  · exact .refl s

theorem answersTaken_keepsQueues (f : Frame) (s : State) : KeepsQueues s (answersTaken f s) := by
  rw [answersTaken_frame]
  exact .of_queues

/-- The answer that was sent leaves the queue (R75). -/
theorem answerSent_keepsQueues (id : Nat) (s : State) : KeepsQueues s (answerSent id s) := .of_sublist rfl List.filter_sublist

/-- On entering OFF the answer queue is emptied (R76). -/
theorem enterOff_keepsQueues (cause : Nat) (s : State) : KeepsQueues s (enterOff cause s) := by
  obtain ⟨es, -, ⟨-, -, hpub, -⟩, -⟩ := enterOff_entersOff cause s
  refine .of_sublist (enterOff_host cause s) ?_
  rw [hpub]
  exact List.nil_sublist _

/-! ### Station control and slot time (R16 to R20, R46 to R56) -/

theorem followOwned_keepsQueues (s : State) : KeepsQueues s (followOwned s) := by
  unfold followOwned
  split
  · exact .unless .of_queues
  · exact .when .of_queues
  · exact .when (enterOff_keepsQueues 6 s)
  all_goals exact .refl s

theorem enterLeaving_keepsQueues (s : State) : KeepsQueues s (enterLeaving s) :=
  KeepsQueues.after (.when (enterOff_keepsQueues 6 _))

theorem feedTimer_keepsQueues (s : State) : KeepsQueues s (feedTimer s) :=
  .unless (KeepsQueues.after (.when .of_queues))

theorem candidateSearch_keepsQueues (s : State) : KeepsQueues s (candidateSearch s) := .of_map (candidateSearch_outsideMap s)

theorem takeSilence_keepsQueues (s : State) : KeepsQueues s (takeSilence s) := by
  unfold takeSilence
  split
  · exact .refl s
  · exact KeepsQueues.after (.when (.of_map (setSlotState_outsideMap ..)))

theorem takeListen_keepsQueues (s : State) : KeepsQueues s (takeListen s) :=
  .when <| KeepsQueues.after (.when <| KeepsQueues.after (.when <| (candidateSearch_keepsQueues _).after))

theorem takeLeaving_keepsQueues (s : State) : KeepsQueues s (takeLeaving s) :=
  .when <| KeepsQueues.after (.when <| KeepsQueues.after (.when <| enterOff_keepsQueues 7 _))

theorem takeHost_keepsQueues (s : State) : KeepsQueues s (takeHost s) :=
  .when <| KeepsQueues.after (.unless <| KeepsQueues.after (.when <| .of_queues))

theorem takeAges_keepsQueues (s : State) : KeepsQueues s (takeAges s) := by
  refine .when <| KeepsQueues.after (.unless <| .of_image (forEntries_outsideImage _ (fun i s => ?_) _))
  simp only [ageEntry]
  split <;> simp

theorem takeWaits_keepsQueues (s : State) : KeepsQueues s (takeWaits s) :=
  .when <| KeepsQueues.after (.unless <| foldl_keepsQueues (fun s id => .of_peers (waitRecord_outsidePeers s id)) _ _)

theorem takeDeadline_keepsQueues (s : State) : KeepsQueues s (takeDeadline s) := .of_units (takeDeadline_outsideUnits s)

theorem takePeriods_keepsQueues (s : State) : KeepsQueues s (takePeriods s) :=
  have h := takePeriods_outsideUnits s
  .of_queues (congrArg State.host h :) (congrArg (·.pub.answers) h :)

theorem takeReactions_keepsQueues (s : State) : KeepsQueues s (takeReactions s) :=
  (takeListen_keepsQueues s).trans <| (takeLeaving_keepsQueues _).trans <| (takeHost_keepsQueues _).trans <|
    (takeAges_keepsQueues _).trans <| (takeWaits_keepsQueues _).trans <| (takeDeadline_keepsQueues _).trans (takePeriods_keepsQueues _)

theorem earlyReactions_keepsQueues (s : State) : KeepsQueues s (earlyReactions s) :=
  (KeepsQueues.when (takeListen_keepsQueues s)).trans <| (KeepsQueues.when (takeLeaving_keepsQueues _)).trans <|
    (KeepsQueues.when (takeHost_keepsQueues _)).trans <| (KeepsQueues.when (takeAges_keepsQueues _)).trans <|
      (KeepsQueues.when (takeWaits_keepsQueues _)).trans <| (KeepsQueues.when (takeDeadline_keepsQueues _)).trans
        (.when (takePeriods_keepsQueues _))

theorem countBoundary_keepsQueues (s : State) : KeepsQueues s (countBoundary s) := by
  have due (t : State) : KeepsQueues t (dueAtBoundary t) := .of_queues
  exact (takeReactions_keepsQueues s).trans (.unless ((candidateSearch_keepsQueues _).after.trans (due _)))

theorem takeSlotEnd_keepsQueues (s : State) : KeepsQueues s (takeSlotEnd s) :=
  (takeSilence_keepsQueues s).trans (.when (countBoundary_keepsQueues _).after)

theorem takeStart_keepsQueues (s : State) : KeepsQueues s (takeStart s) := by
  refine .when (KeepsQueues.after (.unless ?_))
  split
  · exact .of_queues
  · exact .refl _

theorem takeAllDue_keepsQueues (s : State) : KeepsQueues s (takeAllDue s) :=
  (takeSlotEnd_keepsQueues s).trans <| (takeReactions_keepsQueues _).trans (takeStart_keepsQueues _)

theorem takeMoment_keepsQueues (s : State) : KeepsQueues s (takeMoment s) :=
  (takeAllDue_keepsQueues s).trans (.of_units (takeCall_outsideUnits _))

theorem passSlot_keepsQueues (s : State) : KeepsQueues s (passSlot s) := .unless .of_queues

theorem adopt_keepsQueues (slot bytes : Nat) (s : State) : KeepsQueues s (adopt slot bytes s) :=
  KeepsQueues.after (.when (countBoundary_keepsQueues _))

/-! ### Frames, arrivals and holds (R9 to R15, R21, R30 to R36) -/

theorem giveUpSlot_keepsQueues (x : Transmission) (winner : Option Nat) (s : State) : KeepsQueues s (giveUpSlot x winner s) :=
  .of_map (giveUpSlot_outsideMap x winner s)

theorem reportClaim_keepsQueues (x : Transmission) (e : TxEnd) (clean : Nat) (s : State) : KeepsQueues s (reportClaim x e clean s) := by
  unfold reportClaim
  split
  · exact .ite .of_queues (followOwned_keepsQueues _).after
  · exact (giveUpSlot_keepsQueues x _ s).trans .of_queues
  · exact .refl s

theorem reportOwned_keepsQueues (x : Transmission) (e : TxEnd) (clash : Nat) (s : State) : KeepsQueues s (reportOwned x e clash s) := by
  unfold reportOwned
  split
  · exact .of_queues
  · exact .ite .of_queues ((giveUpSlot_keepsQueues x _ s).trans (followOwned_keepsQueues _).after)
  · exact .refl s

theorem reportToSlots_keepsQueues (x : Transmission) (e : TxEnd) (s : State) : KeepsQueues s (reportToSlots x e s) := by
  unfold reportToSlots
  split
  · exact reportClaim_keepsQueues ..
  · split
    · exact (KeepsQueues.of_map (setSlotState_outsideMap ..)).trans (followOwned_keepsQueues _)
    · exact reportOwned_keepsQueues ..
    all_goals exact .refl s
  · exact .refl s

theorem reportToLists_keepsQueues (x : Transmission) (e : TxEnd) (s : State) : KeepsQueues s (reportToLists x e s) := by
  have answered : KeepsQueues s (match x.answer with | some id => answerSent id s | none => s) := by
    split
    · exact answerSent_keepsQueues ..
    · exact .refl s
  unfold reportToLists
  split
  · dsimp only
    split
    · exact answered.trans (.of_requests (requestSent_outsideRequests ..))
    · exact answered
  all_goals exact .refl s

theorem reportEnd_keepsQueues (x : Transmission) (e : TxEnd) (s : State) : KeepsQueues s (reportEnd x e s) :=
  .ite ((reportToSlots_keepsQueues x e s).trans (reportToLists_keepsQueues ..))
    ((reportToLists_keepsQueues x e s).trans (reportToSlots_keepsQueues ..))

theorem reportLost_keepsQueues (cls : ArrivalClass) (frame : Option Frame) (waiting : List Transmission) (s : State) :
    KeepsQueues s (reportLost cls frame waiting s) := foldl_keepsQueues (fun _ _ => reportEnd_keepsQueues ..) _ s

theorem abandonTransmission_keepsQueues (x : Transmission) (s : State) : KeepsQueues s (abandonTransmission x s) :=
  (reportEnd_keepsQueues ..).after

theorem takeSendPoint_keepsQueues (s : State) : KeepsQueues s (takeSendPoint s) := by
  unfold takeSendPoint
  split
  · refine .unless (.ite (abandonTransmission_keepsQueues ..) ?_)
    split
    · exact .of_queues
    · exact .of_queues
  · exact .refl s

theorem takeSent_keepsQueues (s : State) : KeepsQueues s (takeSent s) := by
  unfold takeSent
  split
  · exact .when (reportEnd_keepsQueues ..).after
  · exact .refl s

theorem mapArrival_keepsQueues (f : Frame) (winner : Bool) (s : State) : KeepsQueues s (mapArrival f winner s) :=
  .of_map (mapArrival_outsideMap f winner s)

theorem imageArrival_keepsQueues (f : Frame) (v : Verdict) (s : State) : KeepsQueues s (imageArrival f v s) :=
  .of_image (imageArrival_outsideImage f v s)

theorem blocksTake_keepsQueues (f : Frame) (v : Verdict) (winner : Bool) (waiting : List Transmission) (o : Order) (s : State) :
    KeepsQueues s (blocksTake f v winner waiting o s) := by
  refine .ite ?_ ?_
  · exact (mapArrival_keepsQueues ..).trans <| (reportLost_keepsQueues ..).trans <| (imageArrival_keepsQueues ..).trans <|
      (requestTaken_keepsQueues ..).trans (answersTaken_keepsQueues ..)
  · exact (KeepsQueues.unless (imageArrival_keepsQueues ..)).trans <| (KeepsQueues.unless (answersTaken_keepsQueues ..)).trans <|
      (mapArrival_keepsQueues ..).trans <| (KeepsQueues.when (imageArrival_keepsQueues ..)).trans <|
        (KeepsQueues.when (answersTaken_keepsQueues ..)).trans <| (requestTaken_keepsQueues ..).trans (reportLost_keepsQueues ..)

theorem handArrival_keepsQueues (f : Frame) (bytes : Nat) (waiting : List Transmission) (s : State) :
    KeepsQueues s (handArrival f bytes waiting s) := by
  have early : KeepsQueues s (adoptedEarly f bytes s) := .when ((adopt_keepsQueues ..).trans (earlyReactions_keepsQueues _))
  have late (t : State) : KeepsQueues t (adoptedLate f bytes s t) := .when (adopt_keepsQueues ..)
  rw [handArrival_eq]
  exact early.trans <| (KeepsQueues.of_peers (peerArrival_outsidePeers f _)).trans <| (blocksTake_keepsQueues ..).trans (late _)

theorem otherArrival_keepsQueues (cls : ArrivalClass) (frame : Option Frame) (bytes : Nat) (s : State) :
    KeepsQueues s (otherArrival cls frame bytes s) := by
  have ended (t : State) : KeepsQueues t (arrivalOver t) := .of_queues
  simp only [otherArrival]
  split
  · exact .ite (reportLost_keepsQueues ..).after ((handArrival_keepsQueues ..).after.trans (ended _))
  · exact (KeepsQueues.after (.unless (.of_peers (setFault_outsidePeers ..)))).trans (reportLost_keepsQueues ..)
  · exact (reportLost_keepsQueues ..).after

theorem reportActivity_keepsQueues (slot : Option Nat) (s : State) : KeepsQueues s (reportActivity slot s) := by
  refine .unless ?_
  unfold markActivity
  split
  · exact .of_queues
  · exact .refl s

theorem closeArrival_keepsQueues (r : Reception) (cls : ArrivalClass) (frame : Option Frame) (s : State) :
    KeepsQueues s (closeArrival r cls frame s) :=
  (reportActivity_keepsQueues ..).after.trans (.unless (otherArrival_keepsQueues ..))

theorem takeArrivalEnd_keepsQueues (s : State) : KeepsQueues s (takeArrivalEnd s) := by
  unfold takeArrivalEnd
  split
  · exact .refl s
  · exact closeArrival_keepsQueues ..

theorem cutArrival_keepsQueues (s : State) : KeepsQueues s (cutArrival s) := by
  unfold cutArrival
  split
  · exact .refl s
  · exact closeArrival_keepsQueues ..

theorem holdClaims_keepsQueues (s : State) : KeepsQueues s (holdClaims s) := foldl_keepsQueues (fun _ _ => .of_queues) _ s

theorem takeHold_keepsQueues (s : State) : KeepsQueues s (takeHold s) := by
  have cut (t : State) : KeepsQueues t (cutAndFree t) :=
    .ite ((cutArrival_keepsQueues t).trans (holdClaims_keepsQueues _)) ((holdClaims_keepsQueues t).trans (cutArrival_keepsQueues _))
  have abandoned (t : State) : KeepsQueues t (abandonAny t) := by
    unfold abandonAny
    split
    · exact abandonTransmission_keepsQueues ..
    · exact .refl _
  exact (cut _).after.trans (abandoned _)

theorem readBack_keepsQueues (level : Level) (s : State) : KeepsQueues s (readBack level s) := by
  unfold readBack
  split
  · exact .refl s
  · split
    · exact .refl s
    · exact .ite .of_queues .of_queues

theorem takeLineEnd_keepsQueues (s : State) : KeepsQueues s (takeLineEnd s) :=
  (KeepsQueues.when (takeArrivalEnd_keepsQueues s)).trans (.when .of_queues)

theorem stepTimer_keepsQueues (s : State) : KeepsQueues s (stepTimer s) :=
  .unless (.ite (passSlot_keepsQueues s) (KeepsQueues.after (.when (takeSendPoint_keepsQueues _))))

/-! ### The events of a step enter the queue (R168) -/

theorem foldl_enterEvent_events_le (es : List EventRecord) {h : HostLink} (hl : h.events.length ≤ 32) :
    (es.foldl enterEvent h).events.length ≤ 32 := by
  induction es generalizing h with
  | nil => exact hl
  | cons e es ih => exact ih (enterEvent_events_le h e hl)

theorem finish_keepsQueues (s : State) : KeepsQueues s (finish s) where
  events h := by
    rw [finish_host]
    exact foldl_enterEvent_events_le _ h
  answers h := by
    rw [finish_frame]
    exact h

/-- What a whole step makes of the two queues: they keep their bounds, and no event is left waiting where none was. -/
structure EndsQueues (s t : State) : Prop extends KeepsQueues s t where
  settled : s.settled → t.settled

theorem EndsQueues.refl (s : State) : EndsQueues s s := ⟨.refl s, id⟩

theorem EndsQueues.trans {s t u : State} (h : EndsQueues s t) (g : EndsQueues t u) : EndsQueues s u :=
  ⟨h.toKeepsQueues.trans g.toKeepsQueues, g.settled ∘ h.settled⟩

/-- With its events in the queue a step has left none waiting. -/
theorem KeepsQueues.ends {s t : State} (h : KeepsQueues s t) : EndsQueues s (finish t) :=
  ⟨h.trans (finish_keepsQueues t), fun _ => by rw [finish_frame]⟩

/-- A change outside the queues that raises nothing. -/
theorem EndsQueues.of_queues {s t : State} (host : t.host = s.host := by rfl)
    (answers : t.pub.answers = s.pub.answers := by rfl) (raised : t.raised = s.raised := by rfl) :
    EndsQueues s t := ⟨.of_queues host answers, raised.trans⟩

/-- A change of the host link that adds no event. -/
theorem EndsQueues.of_host {s t : State} (events : t.host.events.length ≤ s.host.events.length)
    (answers : t.pub.answers = s.pub.answers := by rfl) (raised : t.raised = s.raised := by rfl) : EndsQueues s t :=
  ⟨⟨events.trans, fun h => by unfold State.AnswersLaw; rwa [answers]⟩, raised.trans⟩

theorem EndsQueues.when {p : Prop} [Decidable p] {s t : State} (h : EndsQueues s t) : EndsQueues s (if p then t else s) := by
  split
  · exact h
  · exact .refl s

theorem EndsQueues.unless {p : Prop} [Decidable p] {s t : State} (h : EndsQueues s t) : EndsQueues s (if p then s else t) := by
  split
  · exact .refl s
  · exact h

theorem settle_endsQueues (s : State) : EndsQueues s (settle s) := .when (takeMoment_keepsQueues s).ends

theorem modPeer_endsQueues (n : Nat) (f : PeerRecord → PeerRecord) (s : State) : EndsQueues s (s.modPeer n f) := by
  unfold State.modPeer
  exact .unless .of_queues

/-- A discovery place given out raises nothing (R91). -/
theorem giveDiscovery_endsQueues (s : State) : EndsQueues s (giveDiscovery s) := by
  refine .when ?_
  split
  · unfold enterDiscovery
    split
    · exact .refl s
    · exact (modPeer_endsQueues ..).trans .of_queues
  · exact .refl s

theorem passMoment_endsQueues (s : State) : EndsQueues s (passMoment s) := by
  have given (t : State) := (giveDiscovery_endsQueues t).toKeepsQueues
  refine .when (KeepsQueues.ends ?_)
  exact (takeMoment_keepsQueues s).trans <| (given _).trans <| (given _).trans <| (given _).trans (given _)

theorem hearBit_keepsQueues (level : Level) (s : State) : KeepsQueues s (hearBit level s) :=
  KeepsQueues.after (.ite (takeHold_keepsQueues _).ends.toKeepsQueues (readBack_keepsQueues level _).after)

theorem endBit_keepsQueues (s : State) : KeepsQueues s (endBit s) := by
  refine (takeSent_keepsQueues s).trans (.ite (.ite ?_ ?_) ?_)
  · have line (t : State) : KeepsQueues t (finish (takeLineEnd t)) := (takeLineEnd_keepsQueues t).ends.toKeepsQueues
    exact .ite ((line _).trans (stepTimer_keepsQueues _)) (line _)
  · exact (stepTimer_keepsQueues _).trans <| (takeAllDue_keepsQueues _).ends.toKeepsQueues.trans (takeLineEnd_keepsQueues _)
  · exact (stepTimer_keepsQueues _).trans (takeLineEnd_keepsQueues _)

theorem bitTime_endsQueues (level : Level) (s : State) : EndsQueues s (bitTime level s) :=
  KeepsQueues.ends <| (passMoment_endsQueues s).toKeepsQueues.trans <| (KeepsQueues.of_units (pastBeginning_outsideUnits _)).trans <|
    (hearBit_keepsQueues level _).trans (endBit_keepsQueues _)

theorem passBits_endsQueues (rxd : List Level) (s : State) : EndsQueues s (passBits rxd s) :=
  foldl_keeps (P := EndsQueues s) (fun t level ht => ht.trans (bitTime_endsQueues level t)) rxd (.refl s)

/-! ### The effects of the commands -/

/-- A command whose check fails changes nothing; one whose check passes goes on. -/
theorem endsQueues_check {p : Prop} [Decidable p] {s : State} {c : ResultCode} {r : Reply} (h : EndsQueues s r.state) :
    EndsQueues s (if p then Reply.only c s else r).state := by
  split
  · exact .refl s
  · exact h

/-- The same, of a check that says when the command goes on. -/
theorem endsQueues_passed {p : Prop} [Decidable p] {s : State} {c : ResultCode} {r : Reply} (h : EndsQueues s r.state) :
    EndsQueues s (if p then r else Reply.only c s).state := by
  split
  · exact h
  · exact .refl s

/-- A change of one snapshot unit raises nothing. -/
theorem modUnit_endsQueues (u : UnitId) (f : SnapshotUnit → SnapshotUnit) (s : State) : EndsQueues s (s.modUnit u f) := by
  cases u <;> exact .of_queues

/-! #### Station control and publication -/

theorem configureEffect_endsQueues (args : List Word) (s : State) : EndsQueues s (configureEffect args s).state := by
  refine endsQueues_check ?_
  split
  · exact .refl s
  · exact .of_queues

theorem definePointEffect_endsQueues (args : List Word) (s : State) : EndsQueues s (definePointEffect args s).state := by
  refine endsQueues_check (endsQueues_check ?_)
  split
  · exact .refl s
  · exact endsQueues_check .of_queues

theorem joinEffect_endsQueues (args : List Word) (s : State) : EndsQueues s (joinEffect args s).state := by
  have joined (st : StationState) : EndsQueues s (finish (joinAs st s)) := KeepsQueues.ends .of_queues
  refine endsQueues_check (endsQueues_check ?_)
  split
  · exact endsQueues_check (joined .listening)
  · exact endsQueues_passed (joined .observer)

theorem leaveEffect_endsQueues (args : List Word) (s : State) : EndsQueues s (leaveEffect args s).state := by
  have off : EndsQueues s (finish (enterOff 5 s)) := (enterOff_keepsQueues 5 s).ends
  have leaving : EndsQueues s (finish (enterLeaving s)) := (enterLeaving_keepsQueues s).ends
  unfold leaveEffect
  split
  · exact .refl s
  · exact off
  · exact off
  · exact leaving
  · exact leaving
  · exact .refl s

theorem setConditionEffect_endsQueues (args : List Word) (s : State) : EndsQueues s (setConditionEffect args s).state := by
  unfold setConditionEffect
  split
  · exact .of_queues
  · exact endsQueues_passed .of_queues

theorem setPointEffect_endsQueues (args : List Word) (s : State) : EndsQueues s (setPointEffect args s).state := by
  unfold setPointEffect
  split
  · exact .refl s
  · exact endsQueues_passed (feedTimer_keepsQueues _).after.ends

theorem getPointEffect_state (args : List Word) (s : State) : (getPointEffect args s).state = s := by
  unfold getPointEffect
  split <;> rfl

/-! #### The image table, watches and peers -/

theorem subscribeEffect_endsQueues (args : List Word) (s : State) : EndsQueues s (subscribeEffect args s).state := by
  have judged (i : Nat) (t : State) : KeepsQueues t (judgeSubscribed i t) :=
    .ite (.of_image (passEntry_outsideImage ..)) (.of_image (resolveEntry_outsideImage ..))
  iterate 6 refine endsQueues_check ?_
  exact (judged ..).after.ends

theorem unsubscribeEffect_endsQueues (args : List Word) (s : State) : EndsQueues s (unsubscribeEffect args s).state :=
  endsQueues_check (endsQueues_check (KeepsQueues.of_units (missEntry_outsideUnits ..)).after.ends)

theorem readImageEffect_endsQueues (args : List Word) (s : State) : EndsQueues s (readImageEffect args s).state :=
  endsQueues_check (.refl s)

theorem setWatchEffect_endsQueues (args : List Word) (s : State) : EndsQueues s (setWatchEffect args s).state := by
  have evaluated (i : Nat) (t : State) : KeepsQueues t (evaluateIfFresh i t) := by
    unfold evaluateIfFresh
    split
    · exact .of_image (evaluateWatch_outsideImage ..)
    · exact .refl t
  iterate 3 refine endsQueues_check ?_
  refine endsQueues_passed (KeepsQueues.ends ?_)
  exact (evaluated ..).after.trans (.of_units (takeCall_outsideUnits _))

theorem clearWatchEffect_endsQueues (args : List Word) (s : State) : EndsQueues s (clearWatchEffect args s).state :=
  endsQueues_check (endsQueues_check .of_queues)

theorem readPeerEffect_endsQueues (args : List Word) (s : State) : EndsQueues s (readPeerEffect args s).state :=
  endsQueues_check (modPeer_endsQueues ..)

theorem readShapeEffect_endsQueues (args : List Word) (s : State) : EndsQueues s (readShapeEffect args s).state := by
  refine endsQueues_check ?_
  split <;> exact .refl s

theorem refreshPeerEffect_endsQueues (args : List Word) (s : State) : EndsQueues s (refreshPeerEffect args s).state := by
  refine endsQueues_check (endsQueues_passed (c := .ok) (KeepsQueues.ends ?_))
  exact (modPeer_endsQueues ..).toKeepsQueues.trans (.of_image (imageRetried_outsideImage ..))

/-! #### Requests, snapshots and events -/

theorem sendRequestEffect_endsQueues (args : List Word) (s : State) : EndsQueues s (sendRequestEffect args s).state := by
  have entered (kind : RequestKind) : EndsQueues s (enterApplication args kind s).state :=
    KeepsQueues.ends (KeepsQueues.after (.when (.of_requests (endRecord_outsideRequests ..))))
  refine endsQueues_check (endsQueues_check ?_)
  split
  · exact .refl s
  · iterate 4 refine endsQueues_check ?_
    exact entered _

theorem takeResultEffect_endsQueues (args : List Word) (s : State) : EndsQueues s (takeResultEffect args s).state := by
  refine endsQueues_check ?_
  split
  · exact .refl s
  · exact .of_queues

theorem cancelRequestEffect_endsQueues (args : List Word) (s : State) : EndsQueues s (cancelRequestEffect args s).state := by
  refine endsQueues_check ?_
  split
  · exact .refl s
  · refine KeepsQueues.ends (KeepsQueues.trans (.when ?_) (.of_requests (removeRecord_outsideRequests ..)))
    exact .of_requests (breakChain_outsideRequests ..)

theorem setSnapshotEffect_endsQueues (args : List Word) (s : State) : EndsQueues s (setSnapshotEffect args s).state := by
  unfold setSnapshotEffect
  split
  · exact .refl s
  · refine endsQueues_check ?_
    split
    · exact .refl s
    · exact modUnit_endsQueues ..
    · exact endsQueues_passed (modUnit_endsQueues ..)

theorem fireSnapshotEffect_endsQueues (args : List Word) (s : State) : EndsQueues s (fireSnapshotEffect args s).state := by
  refine endsQueues_check (endsQueues_check (KeepsQueues.ends ?_))
  exact (KeepsQueues.of_units (giveTriggers_outsideUnits ..)).trans (.of_units (takeCall_outsideUnits _))

theorem rearmSnapshotEffect_endsQueues (args : List Word) (s : State) : EndsQueues s (rearmSnapshotEffect args s).state := by
  unfold rearmSnapshotEffect
  split
  · exact .refl s
  · next u _ =>
    split
    case h_2 => exact modUnit_endsQueues u (fun x => { x with state := .armed }) s
    all_goals exact .refl s

theorem readSnapshotEffect_endsQueues (args : List Word) (s : State) : EndsQueues s (readSnapshotEffect args s).state := by
  unfold readSnapshotEffect
  split
  · exact .refl s
  · exact endsQueues_check (endsQueues_check (.refl s))

/-- TAKE_EVENT takes a record out of the queue (R169). -/
theorem takeEventEffect_endsQueues (args : List Word) (s : State) : EndsQueues s (takeEventEffect args s).state := by
  unfold takeEventEffect
  split
  · exact .of_host le_rfl
  · next e rest h =>
    refine .of_host ?_
    rw [h]
    exact Nat.le_succ _

/-- The effect of every command keeps the queues, and leaves no event waiting. -/
theorem effectOf_endsQueues (n : Nat) (args : List Word) (s : State) : EndsQueues s (effectOf n args s).state := by
  unfold effectOf
  split
  · exact configureEffect_endsQueues args s
  · exact definePointEffect_endsQueues args s
  · exact endsQueues_check .of_queues
  · exact joinEffect_endsQueues args s
  · exact leaveEffect_endsQueues args s
  · exact setConditionEffect_endsQueues args s
  · exact (feedTimer_keepsQueues s).ends
  · exact setPointEffect_endsQueues args s
  · rw [getPointEffect_state]
    exact .refl s
  · exact subscribeEffect_endsQueues args s
  · exact unsubscribeEffect_endsQueues args s
  · exact readImageEffect_endsQueues args s
  · exact setWatchEffect_endsQueues args s
  · exact clearWatchEffect_endsQueues args s
  · exact readPeerEffect_endsQueues args s
  · exact readShapeEffect_endsQueues args s
  · exact refreshPeerEffect_endsQueues args s
  · exact endsQueues_check (.refl s)
  · exact sendRequestEffect_endsQueues args s
  · exact takeResultEffect_endsQueues args s
  · exact cancelRequestEffect_endsQueues args s
  · exact setSnapshotEffect_endsQueues args s
  · exact fireSnapshotEffect_endsQueues args s
  · exact rearmSnapshotEffect_endsQueues args s
  · exact readSnapshotEffect_endsQueues args s
  · exact takeEventEffect_endsQueues args s
  · exact .refl s
  · exact .refl s

/-! ### Every step -/

/-- A refused write adds no event (R166). -/
theorem refuse_endsQueues (s : State) : EndsQueues s (refuse s) := .of_host le_rfl

theorem takeCommand_endsQueues {effect : List Word → State → Reply} (word : Word) (s : State)
    (h : ∀ args s, EndsQueues s (effect args s).state) : EndsQueues s (takeCommand word effect s) := by
  unfold takeCommand
  split
  · exact .refl s
  · exact refuse_endsQueues s
  · split
    · exact refuse_endsQueues s
    · exact (settle_endsQueues s).trans <| (h (settle s).host.args (settle s)).trans (.of_host le_rfl)

/-- A reset empties both queues (R172). -/
theorem resetState_endsQueues (phase : ResetPhase) (s : State) : EndsQueues s (resetState phase s) :=
  ⟨⟨fun _ => Nat.zero_le _, fun _ => ⟨Nat.zero_le _, List.nodup_nil⟩⟩, fun _ => rfl⟩

theorem takeReset_endsQueues (word : Word) (s : State) : EndsQueues s (takeReset word s) := .unless (resetState_endsQueues ..)

theorem writeCommand_endsQueues (word : Word) (s : State) : EndsQueues s (writeCommand word s) := by
  refine .unless ?_
  split
  · exact takeReset_endsQueues word s
  · exact takeCommand_endsQueues word s (effectOf_endsQueues _)

theorem writeWindow_endsQueues (address : BitVec 7) (word : Word) (s : State) : EndsQueues s (writeWindow address word s) := by
  unfold writeWindow
  split
  · exact writeCommand_endsQueues word s
  · exact .when (.when (.of_host le_rfl))

theorem sampleWord_endsQueues (address : BitVec 7) (s : State) : EndsQueues s (sampleWord address s) :=
  (settle_endsQueues s).trans (.of_host le_rfl)

theorem trigEdge_endsQueues (level : Bool) (s : State) : EndsQueues s (whenLive (followEdge level) (setPin level s)) := by
  have pin : EndsQueues s (setPin level s) := (settle_endsQueues s).trans .of_queues
  refine pin.trans (.when (KeepsQueues.ends ?_))
  refine KeepsQueues.trans ?_ (.of_units (takeCall_outsideUnits _))
  exact (KeepsQueues.of_units (giveTriggers_outsideUnits ..)).after

theorem startSlot_keepsQueues (s : State) : KeepsQueues s (startSlot s) :=
  .when <| (takeSlotEnd_keepsQueues s).trans <| (takeListen_keepsQueues _).trans (takeStart_keepsQueues _)

/-- A row of bus time. -/
theorem passRow_endsQueues (before : List Level) (last : Level) {s t : State} (h : passRow before last s = .next t) :
    EndsQueues s t := by
  cases h
  exact .when (passBits_endsQueues _ s)

/-- The row of a reaction. -/
theorem reaction_endsQueues {f : State → State} (hf : ∀ s, KeepsQueues s (f s)) {s t : State}
    (h : Host.Outcome.next (whenLive (fun s => finish (f s)) s) = (.next t : Host.Outcome State Fault Refusal)) : EndsQueues s t := by
  cases h
  exact .when (hf s).ends

/-- The row of a command. -/
theorem command_endsQueues (n : Nat) {word : Word} {s t : State}
    (h : Host.Outcome.next (takeCommand word (effectOf n) s) = (.next t : Host.Outcome State Fault Refusal)) : EndsQueues s t := by
  cases h
  exact takeCommand_endsQueues word s (effectOf_endsQueues n)

theorem commandCompletion_endsQueues {s t : State} (h : execCommandCompletion s = .next t) : EndsQueues s t := by
  unfold execCommandCompletion at h
  split at h
  · cases h
    exact .of_host le_rfl
  · cases h
    exact .refl s

theorem resetComplete_endsQueues {s t : State} (h : execResetComplete s = .next t) : EndsQueues s t := by
  unfold execResetComplete at h
  split at h
  · cases h
    exact .of_host le_rfl
  all_goals
    cases h
    exact .refl s

/-- Every row of the table keeps the queues, and leaves no event waiting. -/
theorem exec_endsQueues (i : Instr) {s t : State} (h : exec i s = .next t) : EndsQueues s t := by
  cases i with
  | reset => cases h; exact takeReset_endsQueues _ s
  | configure => exact command_endsQueues 0x02 h
  | definePoint => exact command_endsQueues 0x03 h
  | clearCatalogue => exact command_endsQueues 0x04 h
  | join => exact command_endsQueues 0x05 h
  | leave => exact command_endsQueues 0x06 h
  | setCondition => exact command_endsQueues 0x07 h
  | feed => exact command_endsQueues 0x08 h
  | setPoint => exact command_endsQueues 0x09 h
  | getPoint => exact command_endsQueues 0x0A h
  | subscribe => exact command_endsQueues 0x0B h
  | unsubscribe => exact command_endsQueues 0x0C h
  | readImage => exact command_endsQueues 0x0D h
  | setWatch => exact command_endsQueues 0x0E h
  | clearWatch => exact command_endsQueues 0x0F h
  | readPeer => exact command_endsQueues 0x10 h
  | readShape => exact command_endsQueues 0x11 h
  | refreshPeer => exact command_endsQueues 0x12 h
  | readSlot => exact command_endsQueues 0x13 h
  | sendRequest => exact command_endsQueues 0x14 h
  | takeResult => exact command_endsQueues 0x15 h
  | cancelRequest => exact command_endsQueues 0x16 h
  | setSnapshot => exact command_endsQueues 0x17 h
  | fireSnapshot => exact command_endsQueues 0x18 h
  | rearmSnapshot => exact command_endsQueues 0x19 h
  | readSnapshot => exact command_endsQueues 0x1A h
  | takeEvent => exact command_endsQueues 0x1B h
  | readCounters => exact command_endsQueues 0x1C h
  | unknownCommandCode => cases h; exact writeCommand_endsQueues _ s
  | commandWriteRefused => cases h; exact writeCommand_endsQueues _ s
  | commandCompletion => exact commandCompletion_endsQueues h
  | resetComplete => exact resetComplete_endsQueues h
  | statusRead =>
    simp only [exec, execStatusRead] at h
    split at h <;> cases h
    · exact .refl s
    · exact sampleWord_endsQueues ..
  | windowWrite =>
    simp only [exec, execWindowWrite] at h
    split at h <;> cases h
    · exact .refl s
    · exact writeWindow_endsQueues ..
  | resetnAssert => cases h; exact resetState_endsQueues _ s
  | resetnRelease =>
    simp only [exec, execResetnRelease] at h
    split at h <;> cases h
    · exact resetState_endsQueues _ s
    · exact .refl s
  | trigEdge =>
    simp only [exec, execTrigEdge] at h
    split at h <;> cases h
    · exact .refl s
    · exact trigEdge_endsQueues ..
  | startBitTaken => exact passRow_endsQueues _ _ h
  | arrivalEnd => exact passRow_endsQueues _ _ h
  | arbitrationLoss => exact passRow_endsQueues _ _ h
  | sendPoint => exact passRow_endsQueues _ _ h
  | transmissionSent => exact passRow_endsQueues _ _ h
  | holdBegin => exact passRow_endsQueues _ _ h
  | holdEnd => exact passRow_endsQueues _ _ h
  | endOfSlot => exact passRow_endsQueues _ _ h
  | silenceLimit => exact reaction_endsQueues takeSilence_keepsQueues h
  | roundBoundary => exact reaction_endsQueues takeSlotEnd_keepsQueues h
  | startOfSlot => exact reaction_endsQueues startSlot_keepsQueues h
  | listenEnd => exact reaction_endsQueues takeListen_keepsQueues h
  | leavingLimit => exact reaction_endsQueues takeLeaving_keepsQueues h
  | hostLost => exact reaction_endsQueues takeHost_keepsQueues h
  | staleAge => exact reaction_endsQueues takeAges_keepsQueues h
  | answerWaitExpiry => exact reaction_endsQueues takeWaits_keepsQueues h
  | roundTrigger => exact reaction_endsQueues takePeriods_keepsQueues h
  | deadlinePassed => exact reaction_endsQueues takeDeadline_keepsQueues h
  | discoveryEntry => cases h; exact .when (giveDiscovery_endsQueues s)

theorem ownTime_endsQueues (s : State) : EndsQueues s (ownTime s) := by
  unfold ownTime
  split
  · exact passMoment_endsQueues s
  · exact bitTime_endsQueues _ s

/-- A step keeps the queues: taking a command off the queue of commands touches neither. -/
theorem step_endsQueues {s t : State} (h : step s = .next t) : EndsQueues s t := by
  unfold step at h
  split at h
  · cases h
    exact .when (ownTime_endsQueues s)
  · next rest _ => exact EndsQueues.trans (t := { s with pending := rest }) .of_queues (exec_endsQueues _ h)

/-- Settles O55: a row takes the events it raises into the bounded queue, and enters an answer only where it is new and has room. -/
theorem stepsKeepTheQueues : Obligations.StepsKeepTheQueues := by
  refine ⟨fun s t hs h => ?_, fun s t hs h => (step_endsQueues h).answers hs⟩
  obtain ⟨hevents, hraised⟩ := hs
  exact ⟨(step_endsQueues h).events hevents, (step_endsQueues h).settled hraised⟩

end Sys2Proof.Machine

namespace Sys2Proof.Machine

/-! ## Numbers of a width and format (R58) -/

/-- The low bits of a value are its remainder by the width's power of 2. -/
theorem lowBits_toNat (w : Width) (v : Word) : (lowBits w v).toNat = v.toNat % 2 ^ w.bits := by
  have hmask : 2 ^ w.bits - 1 < 2 ^ 32 := by cases w <;> decide
  rw [lowBits, BitVec.toNat_and, BitVec.toNat_ofNat, Nat.mod_eq_of_lt hmask, Nat.and_two_pow_sub_one_eq_mod]

theorem lowBits_eq_iff (w : Width) (v : Word) : lowBits w v = v ↔ v.toNat < 2 ^ w.bits := by
  rw [← BitVec.toNat_inj, lowBits_toNat, Nat.mod_eq_iff_lt (Nat.two_pow_pos _).ne']

theorem fits_unsigned_iff (w : Width) (v : Word) : fits w .unsigned v = true ↔ v.toNat < 2 ^ w.bits := by
  simp [fits, extend, lowBits_eq_iff]

theorem fits_flags_iff (w : Width) (v : Word) : fits w .flags v = true ↔ v.toNat < 2 ^ w.bits := by
  simp [fits, extend, lowBits_eq_iff]

/-- A value's high bits are all set when those of its complement are all clear. -/
theorem or_highBits_eq_iff (w : Width) (v : Word) :
    v ||| ~~~BitVec.ofNat 32 (2 ^ w.bits - 1) = v ↔ (~~~v).toNat < 2 ^ w.bits := by
  rw [← lowBits_eq_iff, lowBits, ← BitVec.not_inj (x := v ||| _), BitVec.not_or, BitVec.not_not]

/-- The sign bit of a number that has no higher bit set tells whether it lies below the half of its width's range. -/
theorem signBit_eq_false_iff {w : Width} {v : Word} (h : v.toNat < 2 ^ w.bits) :
    v.getLsbD (w.bits - 1) = false ↔ v.toNat < 2 ^ (w.bits - 1) := by
  have hbits : w.bits - 1 + 1 = w.bits := by cases w <;> rfl
  rw [BitVec.getLsbD]
  refine ⟨fun hbit => ?_, Nat.testBit_lt_two_pow⟩
  by_contra hge
  rw [Nat.testBit_of_two_pow_le_and_two_pow_add_one_gt (Nat.le_of_not_lt hge) (hbits.symm ▸ h)] at hbit
  cases hbit

/-- A SIGNED number fits when it, or its complement, lies below the half of its width's range. -/
theorem fits_signed_iff_halves (w : Width) (v : Word) :
    fits w .signed v = true ↔ v.toNat < 2 ^ (w.bits - 1) ∨ (~~~v).toNat < 2 ^ (w.bits - 1) := by
  have hhalf : 2 ^ (w.bits - 1) < 2 ^ w.bits := Nat.pow_lt_pow_right (by decide) (by cases w <;> decide)
  have hindex : w.bits - 1 < 32 := by cases w <;> decide
  have hnot : (~~~v).getLsbD (w.bits - 1) = !v.getLsbD (w.bits - 1) := by simp [hindex]
  simp only [fits, extend, beq_iff_eq]
  split
  · next hsign =>
    have hbig : ¬v.toNat < 2 ^ (w.bits - 1) := fun h => by rw [BitVec.getLsbD, Nat.testBit_lt_two_pow h] at hsign; cases hsign
    rw [or_highBits_eq_iff, or_iff_right hbig]
    exact ⟨fun h => (signBit_eq_false_iff h).mp (by rw [hnot, hsign]; rfl), fun h => h.trans hhalf⟩
  · next hsign =>
    have hsign := Bool.eq_false_of_not_eq_true hsign
    have hbig : ¬(~~~v).toNat < 2 ^ (w.bits - 1) := fun h => by
      rw [hsign, BitVec.getLsbD, Nat.testBit_lt_two_pow h] at hnot
      cases hnot
    rw [lowBits_eq_iff, or_iff_left hbig]
    exact ⟨fun h => (signBit_eq_false_iff h).mp hsign, fun h => h.trans hhalf⟩

theorem fits_signed_iff (w : Width) (v : Word) :
    fits w .signed v = true ↔ -(2 ^ (w.bits - 1) : Int) ≤ v.toInt ∧ v.toInt < (2 ^ (w.bits - 1) : Int) := by
  have hv := v.isLt
  rw [fits_signed_iff_halves, BitVec.toNat_not, BitVec.toInt_eq_toNat_cond]
  cases w <;> simp only [Width.bits] <;> split <;> omega

/-! ## A point in the data section (R67, R107) -/

theorem extend_lowBits (w : Width) (f : Format) (v : Word) : extend w f (lowBits w v) = extend w f v := by
  have hlow : lowBits w (lowBits w v) = lowBits w v := by rw [lowBits, lowBits, BitVec.and_assoc, BitVec.and_self]
  cases f with
  | unsigned => exact hlow
  | flags => exact hlow
  | signed =>
    have hsign : (lowBits w v).getLsbD (w.bits - 1) = v.getLsbD (w.bits - 1) := by
      have hbit : w.bits - 1 < w.bits := by cases w <;> decide
      rw [BitVec.getLsbD, lowBits_toNat, Nat.testBit_mod_two_pow, decide_eq_true hbit, Bool.true_and, BitVec.getLsbD]
    have hhigh : lowBits w v ||| ~~~BitVec.ofNat 32 (2 ^ w.bits - 1) = v ||| ~~~BitVec.ofNat 32 (2 ^ w.bits - 1) := by
      apply BitVec.eq_of_getLsbD_eq
      intro i hi
      simp only [lowBits, BitVec.getLsbD_or, BitVec.getLsbD_and, BitVec.getLsbD_not, hi, decide_true, Bool.true_and]
      cases v.getLsbD i <;> simp
    simp only [extend, hsign, hhigh, hlow]

theorem bitsToNat_testBit (bits : List Bool) (j : Nat) : (bitsToNat bits).testBit j = bits.getD j false := by
  induction bits generalizing j with
  | nil => simp [bitsToNat]
  | cons b bits ih =>
    cases j with
    | zero => cases b <;> simp [bitsToNat, bit]
    | succ j =>
      have hhalf : (bit b + 2 * bitsToNat bits) / 2 = bitsToNat bits := by
        have hbit : bit b < 2 := by cases b <;> decide
        omega
      rw [bitsToNat, Nat.testBit_succ, hhalf, ih]
      rfl

theorem length_sectionBits (c : List Point) : (sectionBits c).length = publishedBits c := by
  induction c with
  | nil => rfl
  | cons p c ih =>
    have hpoint : (if p.descriptor.direction.sent then (List.range p.descriptor.width.bits).map p.value.getLsbD else []).length
        = if p.descriptor.direction.sent then p.descriptor.width.bits else 0 := by split <;> simp
    simp only [sectionBits, publishedBits, List.flatMap_cons, List.length_append, List.map_cons, List.sum_cons] at ih ⊢
    rw [hpoint, ih]

theorem length_dataSection (c : List Point) : (dataSection c).length = (publishedBits c + 7) / 8 := by simp [dataSection]

/-- Bit n of the data section is bit n of the sent bits (R67). -/
theorem sectionBit_dataSection {c : List Point} {n : Nat} (h : n < publishedBits c) :
    sectionBit (dataSection c) n = (sectionBits c).getD n false := by
  have hbyte : n / 8 < (publishedBits c + 7) / 8 := by omega
  have hbit : n % 8 < 8 := Nat.mod_lt _ (by decide)
  have hread : (dataSection c).getD (n / 8) 0 = sectionByte (sectionBits c) (n / 8) := by
    simp [dataSection, List.getD_eq_getElem?_getD, hbyte]
  rw [sectionBit, hread, sectionByte, BitVec.getLsbD_ofNat, decide_eq_true hbit, Bool.true_and, bitsToNat_testBit]
  simp only [List.getD_eq_getElem?_getD, List.getElem?_take, hbit, if_true, List.getElem?_drop, Nat.div_add_mod]

/-- The bits of a point follow those of the points before it (R67). -/
theorem sectionBits_getD_offset {before after : List Point} {p : Point} (hsent : p.descriptor.direction.sent = true) {k : Nat}
    (hk : k < p.descriptor.width.bits) :
    (sectionBits (before ++ p :: after)).getD (publishedBits before + k) false = p.value.getLsbD k := by
  have hsplit : sectionBits (before ++ p :: after)
      = sectionBits before ++ ((List.range p.descriptor.width.bits).map p.value.getLsbD ++ sectionBits after) := by
    simp [sectionBits, hsent]
  rw [hsplit, List.getD_eq_getElem?_getD, List.getElem?_append_right (by rw [length_sectionBits]; omega), length_sectionBits,
    Nat.add_sub_cancel_left, List.getElem?_append_left (by simpa using hk)]
  simp [hk]

/-- The bits read at an offset are the low bits of the number that stands there, bit by bit. -/
theorem sectionNumber_eq_mod {data : List Byte} {offset : Nat} {v : Word} :
    ∀ w : Nat, (∀ k, k < w → sectionBit data (offset + k) = v.getLsbD k) → sectionNumber data offset w = v.toNat % 2 ^ w
  | 0, _ => by simp [sectionNumber, Nat.mod_one]
  | w + 1, h => by
    rw [sectionNumber, sectionNumber_eq_mod w fun k hk => h k (by omega), h w (Nat.lt_succ_self w), Nat.mod_pow_succ,
      ← Nat.toNat_testBit, BitVec.getLsbD]
    cases v.toNat.testBit w <;> simp

theorem publishedBits_append (before after : List Point) :
    publishedBits (before ++ after) = publishedBits before + publishedBits after := by simp [publishedBits]

/-- Settles O16: the sent bits stand one after another, and a point's low bits determine a value that fits. -/
theorem dataSectionCarriesTheValues : Obligations.DataSectionCarriesTheValues := by
  intro c
  refine ⟨length_dataSection c, ?_⟩
  rintro before after p rfl hsent hfits
  have hroom : publishedBits (p :: after) = p.descriptor.width.bits + publishedBits after := by simp [publishedBits, hsent]
  have hbits : ∀ k, k < p.descriptor.width.bits →
      sectionBit (dataSection (before ++ p :: after)) (publishedBits before + k) = p.value.getLsbD k := fun k hk => by
    rw [sectionBit_dataSection (by rw [publishedBits_append, hroom]; omega), sectionBits_getD_offset hsent hk]
  have hlow : BitVec.ofNat 32 (p.value.toNat % 2 ^ p.descriptor.width.bits) = lowBits p.descriptor.width p.value := by
    rw [← lowBits_toNat, BitVec.ofNat_toNat, BitVec.setWidth_eq]
  rw [readPoint, sectionNumber_eq_mod _ hbits, hlow, extend_lowBits]
  exact beq_iff_eq.mp hfits

end Sys2Proof.Machine

namespace Sys2Proof.Machine

/-! ## The place of a point in the catalogue -/

/-- A list that goes on with `a` from place `i` holds `a` there. -/
theorem getElem?_of_drop {α : Type} {l : List α} {i : Nat} {a : α} (h : l.drop i = a :: l.drop (i + 1)) : getElem? l i = some a := by
  rw [← List.head?_drop, h]
  rfl

theorem modify_of_getElem? {α : Type} {l : List α} {i : Nat} {a : α} (f : α → α) (h : getElem? l i = some a) :
    l.modify i f = l.set i (f a) := by
  rw [List.modify_eq_set_getElem?, h]
  rfl

/-! ## What a point admits (R64, R71) -/

theorem withinLimits_iff (d : Descriptor) (v : Word) :
    withinLimits d v = true ↔ (d.format ≠ .flags → lessThan d.format v d.low = false ∧ lessThan d.format d.high v = false) := by
  unfold withinLimits
  split <;> simp [*]

theorem admits_iff (p : Point) (v : Word) :
    p.admits v = true ↔ fits p.descriptor.width p.descriptor.format v = true
      ∧ (p.descriptor.format ≠ .flags →
          lessThan p.descriptor.format v p.descriptor.low = false ∧ lessThan p.descriptor.format p.descriptor.high v = false) := by
  rw [Point.admits, Bool.and_eq_true, withinLimits_iff]

/-! ## SET_POINT and GET_POINT (R64, R65) -/

theorem setPointEffect_of_beyond {args : List Word} {s : State} (h : s.pub.catalogue.length ≤ argN args 0) :
    setPointEffect args s = Reply.only .badArgument s := by
  rw [setPointEffect, List.getElem?_eq_none h]

theorem setPointEffect_of_point {args : List Word} {s : State} {p : Point} (h : getElem? s.pub.catalogue (argN args 0) = some p) :
    setPointEffect args s
      = if p.admits (arg args 1) then Reply.only .ok (finish (feedTimer (setPointValue (argN args 0) (arg args 1) s)))
        else Reply.only .badArgument s := by
  rw [setPointEffect, h]

theorem getPointEffect_of_beyond {args : List Word} {s : State} (h : s.pub.catalogue.length ≤ argN args 0) :
    getPointEffect args s = Reply.only .badArgument s := by
  rw [getPointEffect, List.getElem?_eq_none h]

theorem getPointEffect_of_point {args : List Word} {s : State} {p : Point} (h : getElem? s.pub.catalogue (argN args 0) = some p) :
    getPointEffect args s = ⟨s, .ok, [p.value, BitVec.ofNat 32 p.writer]⟩ := by
  rw [getPointEffect, h]

/-- The host's value takes the place of the point's, with last writer 0 (R64). -/
theorem setPointValue_eq {i : Nat} {s : State} {p : Point} (h : getElem? s.pub.catalogue i = some p) (v : Word) :
    setPointValue i v s
      = { s with pub := { s.pub with catalogue := s.pub.catalogue.set i { p with value := v, writer := 0 } } } := by
  rw [setPointValue, State.modPub, modify_of_getElem? _ h]

/-- Settles O15, by what each effect answers for a point that is there and for one that is not. -/
theorem setAndGetPoint : Obligations.SetAndGetPoint := by
  refine ⟨fun s top operand hready hsettled => ?_, fun s top operand hready => ?_⟩
  · intro w i v
    have row : exec (.setPoint top operand) s = .next (takeCommand w setPointEffect s) := rfl
    refine ⟨fun hbeyond => gives_taken_same row hready (setPointEffect_of_beyond hbeyond), ?_⟩
    intro p hdrop ok
    have hp : getElem? s.pub.catalogue i = some p := getElem?_of_drop hdrop
    refine ⟨fun hok => ?_, fun hbad => ?_⟩
    · refine gives_taken row hready ((setPointEffect_of_point hp).trans (if_pos ((admits_iff p v).mpr hok))) ?_
      refine (finish_feedTimer_visible (s := setPointValue i v s) hsettled).trans ?_
      rw [setPointValue_eq hp]
    · exact gives_taken_same row hready ((setPointEffect_of_point hp).trans (if_neg fun h => hbad ((admits_iff p v).mp h)))
  · intro w
    have row : exec (.getPoint top operand) s = .next (takeCommand w getPointEffect s) := rfl
    refine ⟨fun hbeyond => gives_taken_same row hready (getPointEffect_of_beyond hbeyond), fun p hdrop => ?_⟩
    exact gives_taken_same row hready (getPointEffect_of_point (getElem?_of_drop hdrop))

/-! ## DEFINE_POINT and CLEAR_CATALOGUE (R60 to R62) -/

/-- The descriptor that DEFINE_POINT's words spell, field by field (R58, R60). -/
theorem descriptorOf_eq_some_iff (args : List Word) (d : Descriptor) :
    descriptorOf args = some d ↔
      Width.ofNat? (byteOf (arg args 0) 2).toNat = some d.width
        ∧ Format.ofNat? (byteOf (arg args 0) 1).toNat = some d.format
        ∧ Direction.ofNat? (byteOf (arg args 0) 0).toNat = some d.direction
        ∧ ¬(d.width = .w1 ∧ d.format = .signed)
        ∧ (byteOf (arg args 3) 3).toNat ≤ 8 ∧ (byteOf (arg args 3) 2).toNat ≤ 4
        ∧ d.name = (charsOf [arg args 4, arg args 5]).take (byteOf (arg args 3) 3).toNat
        ∧ d.unit = (charsOf [arg args 6]).take (byteOf (arg args 3) 2).toNat
        ∧ (d.format = .flags → d.low = 0 ∧ d.high = BitVec.ofNat 32 (2 ^ d.width.bits - 1))
        ∧ (d.format ≠ .flags →
            d.low = arg args 1 ∧ d.high = arg args 2 ∧ fits d.width d.format d.low = true
              ∧ fits d.width d.format d.high = true ∧ lessThan d.format d.high d.low = false) := by
  unfold descriptorOf
  simp only [Option.bind_eq_bind, Option.bind_eq_some_iff]
  constructor
  · rintro ⟨width, hwidth, format, hformat, direction, hdirection, h⟩
    split at h
    · cases h
    · next hsigned =>
      split at h
      · cases h
      · next hlengths =>
        obtain ⟨hname, hunit⟩ := not_or.mp hlengths
        cases format with
        | flags =>
          cases h
          exact ⟨hwidth, hformat, hdirection, hsigned, Nat.le_of_not_lt hname, Nat.le_of_not_lt hunit, rfl, rfl,
            fun _ => ⟨rfl, rfl⟩, fun h => absurd rfl h⟩
        | signed | unsigned =>
          dsimp only at h
          split at h
          · next hlimits =>
            cases h
            exact ⟨hwidth, hformat, hdirection, hsigned, Nat.le_of_not_lt hname, Nat.le_of_not_lt hunit, rfl, rfl, nofun,
              fun _ => ⟨rfl, rfl, hlimits.1, hlimits.2.1, Bool.eq_false_of_not_eq_true hlimits.2.2⟩⟩
          · cases h
  · obtain ⟨width, format, direction, low, high, name, unit⟩ := d
    rintro ⟨hwidth, hformat, hdirection, hsigned, hnameLength, hunitLength, rfl, rfl, hflags, hlimits⟩
    refine ⟨width, hwidth, format, hformat, direction, hdirection, ?_⟩
    rw [if_neg hsigned, if_neg (by omega)]
    cases format with
    | flags =>
      have hlow : low = 0 := (hflags rfl).1
      have hhigh : high = width.maxUnsigned := (hflags rfl).2
      rw [hlow, hhigh]
    | signed | unsigned =>
      obtain ⟨rfl, rfl, hlow, hhigh, horder⟩ := hlimits nofun
      exact if_pos ⟨hlow, hhigh, by rw [horder]; nofun⟩

theorem definePointEffect_of_not_off {s : State} (args : List Word) (h : s.ctl.state ≠ .off) :
    definePointEffect args s = Reply.only .wrongState s := if_pos h

/-- In OFF, an index out of range or words that spell no descriptor are BAD_ARGUMENT (R60). -/
theorem definePointEffect_of_bad {s : State} {args : List Word} (h : s.ctl.state = .off)
    (hbad : 32 ≤ (byteOf (arg args 0) 3).toNat ∨ s.pub.catalogue.length < (byteOf (arg args 0) 3).toNat ∨ descriptorOf args = none) :
    definePointEffect args s = Reply.only .badArgument s := by
  rw [definePointEffect, if_neg (not_not_intro h)]
  split
  · rfl
  · next hindex =>
    rw [← or_assoc] at hbad
    rw [hbad.resolve_left hindex]

/-- In OFF, a descriptor is placed where the published bits allow it (R60, R61). -/
theorem definePointEffect_of_descriptor {s : State} {args : List Word} {d : Descriptor} (h : s.ctl.state = .off)
    (hindex : (byteOf (arg args 0) 3).toNat < 32) (hnext : (byteOf (arg args 0) 3).toNat ≤ s.pub.catalogue.length)
    (hd : descriptorOf args = some d) :
    definePointEffect args s
      = if 384 < publishedBits (placePoint s.pub.catalogue (byteOf (arg args 0) 3).toNat ⟨d, d.low, 0⟩) then Reply.only .full s
        else Reply.only .ok
          { s with pub := { s.pub with catalogue := placePoint s.pub.catalogue (byteOf (arg args 0) 3).toNat ⟨d, d.low, 0⟩ } } := by
  rw [definePointEffect, if_neg (not_not_intro h), if_neg (by rw [Config.maxPoints]; omega), hd]
  rfl

/-- Settles O14, from the ranges of the formats, the descriptor field by field, and the effects case by case. -/
theorem catalogueIsDefinedAndCleared : Obligations.CatalogueIsDefinedAndCleared := by
  refine ⟨⟨fun w v => ⟨fits_unsigned_iff w v, fits_flags_iff w v, fits_signed_iff w v⟩, descriptorOf_eq_some_iff⟩,
    fun s top operand hready => ?_, rfl, fun s top operand hready => ?_⟩
  · intro w i n
    have row : exec (.definePoint top operand) s = .next (takeCommand w definePointEffect s) := rfl
    refine ⟨fun hstate => gives_taken_same row hready (definePointEffect_of_not_off _ hstate),
      fun hoff hbad => gives_taken_same row hready (definePointEffect_of_bad hoff hbad), ?_⟩
    intro d hoff hindex hnext hd c
    have defined := definePointEffect_of_descriptor hoff hindex hnext hd
    exact ⟨fun hfull => gives_taken_same row hready (defined.trans (if_pos hfull)),
      fun hroom => gives_taken row hready (defined.trans (if_neg (Nat.not_lt.mpr hroom))) rfl⟩
  · intro w
    have row : exec (.clearCatalogue top operand) s = .next (takeCommand w clearCatalogueEffect s) := rfl
    exact ⟨fun hoff => gives_taken row hready (if_neg (not_not_intro hoff)) rfl,
      fun hstate => gives_taken_same row hready (if_pos hstate)⟩

end Sys2Proof.Machine

namespace Sys2Proof.Machine

/-! ## Requests of peers (R68 to R74) -/

/-- Requests are served in CLAIMING, MEMBER and LEAVING (R69). -/
theorem serves_iff (st : StationState) : st.serves = true ↔ st = .claiming ∨ st = .member ∨ st = .leaving := by
  cases st <;> simp [StationState.serves]

/-- A repeat of a request whose answer is queued, field by field (R69). -/
theorem repeated_iff (n : Nat) (r : RequestSection) (answers : List Answer) :
    answers.any (·.answers n r) = true ↔ ∃ a ∈ answers, a.requester = n ∧ a.tag = r.tag ∧ a.kind = r.kind ∧ a.index = r.index := by
  simp [Answer.answers, and_assoc]

/-! ### The judgement of a write (R71) -/

theorem judgeWrite_of_beyond {c : List Point} {i : Nat} (h : c.length ≤ i) (v : Word) : judgeWrite c i v = (.noPoint, .nothing, none) := by
  rw [judgeWrite, List.getElem?_eq_none h]

theorem judgeWrite_of_published {c : List Point} {i : Nat} {p : Point} (h : getElem? c i = some p)
    (hp : p.descriptor.direction = .published) (v : Word) : judgeWrite c i v = (.notAccepted, .nothing, none) := by
  rw [judgeWrite, h]
  exact if_pos hp

/-- A value lies outside a point's limits, in the point's format; a FLAGS point is not judged (R71). -/
abbrev Descriptor.excludes (d : Descriptor) (v : Word) : Prop :=
  d.format ≠ .flags ∧ (lessThan d.format v d.low = true ∨ lessThan d.format d.high v = true)

theorem excludes_iff (d : Descriptor) (v : Word) : d.excludes v ↔ ¬withinLimits d v = true := by
  rw [withinLimits_iff, Classical.not_imp, not_and_or, Bool.not_eq_false, Bool.not_eq_false]

theorem judgeWrite_of_outside {c : List Point} {i : Nat} {p : Point} {v : Word} (h : getElem? c i = some p)
    (hp : p.descriptor.direction ≠ .published) (hv : p.descriptor.excludes v) :
    judgeWrite c i v = (.outOfRange, .value p.value, none) := by
  rw [judgeWrite, h]
  exact (if_neg hp).trans (if_neg ((excludes_iff _ _).mp hv))

/-- The value that an OK write leaves: of a FLAGS point its low bits (R71). -/
abbrev Descriptor.written (d : Descriptor) (v : Word) : Word := if d.format = .flags then lowBits d.width v else v

theorem judgeWrite_of_inside {c : List Point} {i : Nat} {p : Point} {v : Word} (h : getElem? c i = some p)
    (hp : p.descriptor.direction ≠ .published) (hv : ¬p.descriptor.excludes v) :
    judgeWrite c i v = (.ok, .value (p.descriptor.written v), some (p.descriptor.written v)) := by
  rw [judgeWrite, h]
  exact (if_neg hp).trans (if_pos (not_not.mp fun hout => hv ((excludes_iff _ _).mpr hout)))

/-- A write taken replaces the point's value, names the writer and raises PEER_WRITE (R71 to R73). -/
theorem writePoint_eq {s : State} {i : Nat} {p : Point} (h : getElem? s.pub.catalogue i = some p) (n : Nat) (v : Word) (code : Nat) :
    writePoint i n v code s
      = { s with
          pub := { s.pub with catalogue := s.pub.catalogue.set i { p with value := v, writer := n } }
          raised := s.raised ++ [⟨.peerWrite, code, i, n, v, s.slot.round⟩] } := by
  rw [writePoint, State.modPub, modify_of_getElem? _ h]
  rfl

/-! ### The answer to a READ (R70) -/

theorem judgeRead_entry_of_beyond {c : List Point} {i : Nat} (h : c.length ≤ i) :
    judgeRead c .readEntry i = (.catalogueEnd, .count c.length) := by
  unfold judgeRead
  rw [List.getElem?_eq_none h]

theorem judgeRead_entry_of_point {c : List Point} {i : Nat} {p : Point} (h : getElem? c i = some p) :
    judgeRead c .readEntry i = (.ok, .descriptor p.descriptor) := by
  unfold judgeRead
  rw [h]

theorem judgeRead_point_of_beyond {c : List Point} {i : Nat} (h : c.length ≤ i) : judgeRead c .readPoint i = (.noPoint, .nothing) := by
  unfold judgeRead
  rw [List.getElem?_eq_none h]

theorem judgeRead_point_of_point {c : List Point} {i : Nat} {p : Point} (h : getElem? c i = some p) :
    judgeRead c .readPoint i = (.ok, .value p.value) := by
  unfold judgeRead
  rw [h]

/-! ### What a request comes to (R68, R69) -/

section
variable {n : Nat} {r : RequestSection} {s : State}

theorem requestArrival_of_other (h0 : r.target ≠ 0) (hown : r.target ≠ s.ctl.config.station) : requestArrival n r s = s := by
  rw [requestArrival, if_neg fun h => h0 h.1, if_neg h0, if_neg hown]

theorem requestArrival_of_broadcastRead (h0 : r.target = 0) (hkind : r.kind ≠ .writePoint) :
    requestArrival n r s = countBroadcastIgnored s := if_pos ⟨h0, hkind⟩

theorem requestArrival_of_broadcastWrite (h0 : r.target = 0) (hkind : r.kind = .writePoint) :
    requestArrival n r s
      = if s.ctl.state.serves then applyWrite r.index n 2 (judgeWrite s.pub.catalogue r.index (r.value.getD 0)).2.2 s
        else countNotServed s := by
  rw [requestArrival, if_neg fun h => h.2 hkind, if_pos h0]

theorem requestArrival_of_own (h0 : r.target ≠ 0) (hown : r.target = s.ctl.config.station) :
    requestArrival n r s
      = if s.ctl.state.serves then
          if s.pub.answers.any (·.answers n r) then s
          else if 4 ≤ s.pub.answers.length then countDropped s else serveRequest n r s
        else countNotServed s := by
  rw [requestArrival, if_neg fun h => h0 h.1, if_neg h0, if_pos hown]
  rfl

/-- A request for this station that is no repeat and finds room is served (R69). -/
theorem requestArrival_of_served (h0 : r.target ≠ 0) (hown : r.target = s.ctl.config.station)
    (hserves : s.ctl.state = .claiming ∨ s.ctl.state = .member ∨ s.ctl.state = .leaving)
    (hnew : ¬∃ a ∈ s.pub.answers, a.requester = n ∧ a.tag = r.tag ∧ a.kind = r.kind ∧ a.index = r.index)
    (hroom : s.pub.answers.length < 4) : requestArrival n r s = serveRequest n r s := by
  rw [requestArrival_of_own h0 hown, if_pos ((serves_iff _).mpr hserves), if_neg (by rwa [repeated_iff]),
    if_neg (Nat.not_le.mpr hroom)]

/-! ### The answer of a request served (R70, R71) -/

theorem serveRequest_of_readEntry {o : AnswerOutcome} {c : Content} (hkind : r.kind = .readEntry)
    (hj : judgeRead s.pub.catalogue .readEntry r.index = (o, c)) : serveRequest n r s = enterAnswer n r o c s := by
  unfold serveRequest
  rw [hkind]
  dsimp only
  rw [hj]

theorem serveRequest_of_readPoint {o : AnswerOutcome} {c : Content} (hkind : r.kind = .readPoint)
    (hj : judgeRead s.pub.catalogue .readPoint r.index = (o, c)) : serveRequest n r s = enterAnswer n r o c s := by
  unfold serveRequest
  rw [hkind]
  dsimp only
  rw [hj]

theorem serveRequest_of_write {j : AnswerOutcome × Content × Option Word} (hkind : r.kind = .writePoint)
    (hj : judgeWrite s.pub.catalogue r.index (r.value.getD 0) = j) :
    serveRequest n r s = enterAnswer n r j.1 j.2.1 (applyWrite r.index n 1 j.2.2 s) := by
  unfold serveRequest
  rw [hkind]
  dsimp only
  rw [hj]

/-- A write that is OK is made, and answered. -/
theorem serveRequest_of_taken {o : AnswerOutcome} {c : Content} {v : Word} (hkind : r.kind = .writePoint)
    (hj : judgeWrite s.pub.catalogue r.index (r.value.getD 0) = (o, c, some v)) :
    serveRequest n r s = enterAnswer n r o c (writePoint r.index n v 1 s) := serveRequest_of_write hkind hj

/-- A write that is not OK leaves the point, and its outcome is the answer. -/
theorem serveRequest_of_refused {o : AnswerOutcome} {c : Content} (hkind : r.kind = .writePoint)
    (hj : judgeWrite s.pub.catalogue r.index (r.value.getD 0) = (o, c, none)) : serveRequest n r s = enterAnswer n r o c s :=
  serveRequest_of_write hkind hj

end

/-- Settles O25: each target and state gives a branch of the arrival, and each judgement its answer and its effect. -/
theorem requestsOfPeersAreServed : Obligations.RequestsOfPeersAreServed := by
  refine ⟨?_, ?_, fun s n r h0 hown => requestArrival_of_other h0 hown, ?_⟩
  · intro s n r hown h0 serving repeated answered
    have own := requestArrival_of_own (n := n) h0 hown
    refine ⟨fun hserving => ?_, fun hserving hrepeated => ?_, fun hserving hnew hfull => ?_, fun hserving hnew hroom => ?_⟩
    · rw [own, if_neg (by rwa [serves_iff])]
      rfl
    · rw [own, if_pos ((serves_iff _).mpr hserving), if_pos ((repeated_iff ..).mpr hrepeated)]
    · rw [own, if_pos ((serves_iff _).mpr hserving), if_neg (by rwa [repeated_iff]), if_pos hfull]
      rfl
    · have served := requestArrival_of_served h0 hown hserving hnew hroom
      refine ⟨fun hkind h => served.trans (serveRequest_of_readEntry hkind (judgeRead_entry_of_beyond h)), fun hkind h => ?_,
        fun p hdrop => ?_⟩
      · rcases hkind with hkind | hkind
        · exact served.trans (serveRequest_of_readPoint hkind (judgeRead_point_of_beyond h))
        · exact served.trans (serveRequest_of_refused hkind (judgeWrite_of_beyond h _))
      · have hp := getElem?_of_drop hdrop
        exact ⟨fun hkind => served.trans (serveRequest_of_readEntry hkind (judgeRead_entry_of_point hp)),
          fun hkind => served.trans (serveRequest_of_readPoint hkind (judgeRead_point_of_point hp))⟩
  · intro s n r v p hkind hvalue hown h0 hserving hroom hnew hdrop answer outside written
    have hp := getElem?_of_drop hdrop
    have hv : r.value.getD 0 = v := by rw [hvalue]; rfl
    have served := requestArrival_of_served h0 hown hserving (fun ⟨a, ha, h⟩ => hnew a ha h) hroom
    refine ⟨fun hdir => ?_, fun hdir hout => ?_, fun hdir hin => ?_⟩
    · exact served.trans (serveRequest_of_refused hkind (judgeWrite_of_published hp hdir _))
    · exact served.trans (serveRequest_of_refused hkind (hv ▸ judgeWrite_of_outside hp hdir hout))
    · have judged : judgeWrite s.pub.catalogue r.index (r.value.getD 0) = (.ok, .value written, some written) := by
        rw [hv]
        exact judgeWrite_of_inside hp hdir hin
      rw [served, serveRequest_of_taken hkind judged, writePoint_eq hp]
      rfl
  · intro s n r h0 serving
    have write := fun hkind : r.kind = .writePoint => requestArrival_of_broadcastWrite (n := n) (s := s) h0 hkind
    refine ⟨fun hkind => requestArrival_of_broadcastRead h0 hkind, fun hkind hserving => ?_, fun hkind hserving h => ?_, ?_⟩
    · rw [write hkind, if_neg (by rwa [serves_iff])]
      rfl
    · rw [write hkind, if_pos ((serves_iff _).mpr hserving), judgeWrite_of_beyond h]
      rfl
    · intro v p hkind hvalue hserving hdrop outside written
      have hp := getElem?_of_drop hdrop
      have hv : r.value.getD 0 = v := by rw [hvalue]; rfl
      have judged := (write hkind).trans (if_pos ((serves_iff _).mpr hserving))
      rw [hv] at judged
      refine ⟨fun hrefused => ?_, fun hdir hin => ?_⟩
      · by_cases hdir : p.descriptor.direction = .published
        · rw [judged, judgeWrite_of_published hp hdir]
          rfl
        · rw [judged, judgeWrite_of_outside hp hdir (hrefused.resolve_left hdir)]
          rfl
      · rw [judged, judgeWrite_of_inside hp hdir hin]
        exact writePoint_eq hp ..

end Sys2Proof.Machine
